-- ==== Sys2Proof/Word.lean ====
section
/-! DEFINITION. The words the JC7240's manual speaks of (00_scope.md, 1.6): bytes, lanes, addresses, counts and the
numbers of groups, windows, channels and pool entries. -/

namespace Sys2Proof

/-- One byte of a management frame or of a data word. -/
abbrev Byte := BitVec 8

/-- The eight bytes of a word, byte lane 0 first (00_scope.md, 1.6: byte lane). -/
abbrev Lanes := Vector Byte 8

/-- A set of byte lanes; bit n stands for lane n (R169, Sets). -/
abbrev LaneSet := BitVec 8

/-- A 36-bit byte address (00_scope.md, 1.6: address). -/
abbrev Address := BitVec 36

/-- A word address without its three zero bits: R100 says that a request can name no address that is not a
multiple of 8, and this type holds exactly the multiples of 8 below 2^36. -/
abbrev WordIndex := BitVec 33

/-- A request tag, 0-15 (R100). -/
abbrev Tag := BitVec 4

/-- A 32-bit count that wraps (R46, R111). -/
abbrev Count := BitVec 32

/-- A commit group's number, 0-3. -/
abbrev GroupId := Fin 4

/-- A window's number, 0-7. -/
abbrev WindowId := Fin 8

/-- A capture channel's number, 0-3. -/
abbrev ChannelId := Fin 4

/-- An entry's pool index, 0-63. -/
abbrev PoolIndex := Fin 64

/-- A set of ports; bit 0 stands for port A and bit 1 for port B (R169, Sets). -/
abbrev PortSet := BitVec 2

/-- A set of the nineteen causes, numbered as R169 numbers them. -/
abbrev CauseSet := BitVec 19

end Sys2Proof
end

