-- ==== Sys2Proof/Config.lean ====
section
/-! DEFINITION. What the manual fixes for the part once and for all: the depths of its queues, the length of INIT and
the identity. The manual leaves no result value open, so there is no free value here. -/

namespace Sys2Proof.Config

/-- A port's request queue holds at most 4 requests (R101). -/
def portDepth : Nat := 4

/-- Port M carries at most 4 outstanding requests (R63). -/
def memorySlots : Nat := 4

/-- The capture queue holds up to 32 records (R146). -/
def captureDepth : Nat := 32

/-- INIT lasts until the µs clock first reads 20 (R181). -/
def initMicroseconds : Nat := 20

/-- The page size a window's base and limit are multiples of (R84, R85). -/
def pageBytes : Nat := 4096

/-- The vendor code (R179). -/
def vendorCode : BitVec 16 := 0x0A41#16

/-- The part code (R179). -/
def partCode : BitVec 16 := 0x7240#16

/-- The revision of the part the manual describes (R179). -/
def revision : Byte := 0x01#8

end Sys2Proof.Config
end

