-- ==== Sys2Proof/Syntax.lean ====
section
/-! DEFINITION. The commands of the block: one constructor of Instr per row of spec/opcode_table.json. The arguments
of a management frame stand as the frame's own bytes, so that every refusal of chapter 10 can be reached. -/

namespace Sys2Proof

/-- An upstream port (R100). -/
inductive Port where
  | a
  | b
deriving DecidableEq, Repr

/-- The kind of a request (R100). -/
inductive Access where
  | read
  | write
deriving DecidableEq, Repr

/-- A request as a bus carries it (R100); a READ covers all eight lanes. The requests the bridge sends on port M have
the same form, with port M's own tag (R52, R65). -/
inductive BusRequest where
  | read (word : WordIndex) (tag : Tag)
  | write (word : WordIndex) (mask : LaneSet) (data : Lanes) (tag : Tag)
deriving DecidableEq, Repr

/-- The status of a response (R100). -/
inductive Status where
  | okay
  | error
deriving DecidableEq, Repr

/-- The commands, in the order of spec/opcode_table.json. -/
inductive Instr where
  /-- RESET_N_ASSERT (R180). -/
  | resetNAssert
  /-- RESET_N_RELEASE (R181). -/
  | resetNRelease
  /-- INIT_COMPLETE (R94). -/
  | initComplete
  /-- US_CLOCK_ADVANCE (R118). -/
  | usClockAdvance
  /-- COUNTER_STEP (R117). -/
  | counterStep
  /-- NATURAL_WRAP (R123). -/
  | naturalWrap
  /-- SYNC_IN_EDGE (R128): the edge as R182 takes it. -/
  | syncInEdge
  /-- COMMIT_IN_EDGE (R182): the edge as R182 takes it. -/
  | commitInEdge
  /-- HOLD_LIMIT_EXPIRY (R18) of the write held on a port. -/
  | holdLimitExpiry (port : Port)
  /-- DRAIN_BUDGET_EXPIRY (R58) of a group's draining generation. -/
  | drainBudgetExpiry (group : GroupId)
  /-- REQUEST_ACCEPT (R101): an initiator presents a request to a port. -/
  | requestAccept (port : Port) (request : BusRequest)
  /-- STAGED_WRITE_PLACEMENT (R7): the staged write at a port's head reaches the staging table. -/
  | stagedWritePlacement (port : Port)
  /-- GRANT (R64). -/
  | grant
  /-- MEMORY_RESPONSE (R65): status, the word of a READ, and the tag memory returned. -/
  | memoryResponse (status : Status) (data : Lanes) (tag : Tag)
  /-- RESPONSE_TAKEN (R107): an initiator takes the response its port delivers. -/
  | responseTaken (port : Port)
  /-- PARTIAL_FRAME (R167): CS_N rises before evaluation, after so many rising edges of SCK. -/
  | partialFrame (sckEdges : Nat)
  /-- UNKNOWN_COMMAND (R166). -/
  | unknownCommand (command : Byte)
  /-- GET_SETTING (R171). -/
  | getSetting (item index : Byte)
  /-- PUT_SETTING of item 1 (R118). -/
  | putSettingReferenceFrequency (index value : Byte)
  /-- PUT_SETTING of item 2 (R126). -/
  | putSettingTimebasePrescale (index value : Byte)
  /-- PUT_SETTING of item 3 (R125). -/
  | putSettingPeriod (index : Byte) (value : BitVec 16)
  /-- PUT_SETTING of item 4 (R128). -/
  | putSettingSyncEnable (index value : Byte)
  /-- PUT_SETTING of item 5 (R64). -/
  | putSettingGrantPolicy (index value : Byte)
  /-- PUT_SETTING of item 6 (R149). -/
  | putSettingCaptureThreshold (index value : Byte)
  /-- PUT_SETTING of item 16 (R28). -/
  | putSettingGroupEnabled (index value : Byte)
  /-- PUT_SETTING of item 17 (R30). -/
  | putSettingTriggerSource (index value : Byte)
  /-- PUT_SETTING of item 18 (R31). -/
  | putSettingSlotOffset (index : Byte) (value : BitVec 16)
  /-- PUT_SETTING of item 19 (R29). -/
  | putSettingMode (index value : Byte)
  /-- PUT_SETTING of item 20 (R29). -/
  | putSettingFullPolicy (index value : Byte)
  /-- PUT_SETTING of item 21 (R29). -/
  | putSettingEntryLimit (index value : Byte)
  /-- PUT_SETTING of item 22 (R30). -/
  | putSettingHoldLimit (index : Byte) (value : BitVec 16)
  /-- PUT_SETTING of item 23 (R30). -/
  | putSettingDrainBudget (index : Byte) (value : BitVec 16)
  /-- PUT_SETTING of item 24 (R30). -/
  | putSettingLogCommits (index value : Byte)
  /-- PUT_SETTING of item 32 (R135). -/
  | putSettingChannelEnabled (index value : Byte)
  /-- PUT_SETTING of item 33 (R136). -/
  | putSettingDirection (index value : Byte)
  /-- PUT_SETTING of item 34 (R136). -/
  | putSettingChannelPrescale (index value : Byte)
  /-- PUT_SETTING of item 35 (R136). -/
  | putSettingGate (index value : Byte)
  /-- PUT_SETTING of item 36 (R136). -/
  | putSettingRearmAtWrap (index value : Byte)
  /-- PUT_SETTING of item 37 (R136): match value lanes, then match mask lanes. -/
  | putSettingMatch (index : Byte) (value mask : Lanes)
  /-- PUT_SETTING of item 38 (R136). -/
  | putSettingRecordData (index value : Byte)
  /-- PUT_WINDOW (R86), its 17 argument bytes in the order of R174. -/
  | putWindow (window : Byte) (base limit : BitVec 40)
      (portSet cls group view capturePresent captureChannel : Byte)
  /-- ENABLE_WINDOW (R88). -/
  | enableWindow (window : Byte)
  /-- DISABLE_WINDOW (R89). -/
  | disableWindow (window : Byte)
  /-- READ_WINDOW (R87). -/
  | readWindow (window : Byte)
  /-- READ_STATUS (R173). -/
  | readStatus (block : Byte)
  /-- READ_ENTRY (R26). -/
  | readEntry (index : Byte)
  /-- POP_CAPTURE (R148). -/
  | popCapture
  /-- COMMIT_NOW (R38). -/
  | commitNow (groups : Byte)
  /-- ABORT_GROUP (R43). -/
  | abortGroup (group : Byte)
  /-- REARM (R141). -/
  | rearm (channels : Byte)
  /-- START_TIMEBASE (R121). -/
  | startTimebase
  /-- STOP_TIMEBASE (R122). -/
  | stopTimebase
  /-- ENABLE_BRIDGE (R95). -/
  | enableBridge
  /-- DISABLE_BRIDGE (R96). -/
  | disableBridge
  /-- RESET_DATAPATH (R97). -/
  | resetDatapath
  /-- CLEAR_CAUSES (R159), its set as three bytes. -/
  | clearCauses (causes : BitVec 24)
  /-- SET_ENABLES (R157), its set as three bytes. -/
  | setEnables (causes : BitVec 24)
  /-- READ_IDENTITY (R179). -/
  | readIdentity
  /-- PUT_SETTING of an item number that names no item (R172). -/
  | putSettingUnknownItem (item index : Byte)
deriving DecidableEq, Repr

end Sys2Proof
end

