-- ==== Sys2Proof/Machine/State.lean ====
section
/-! DEFINITION. The state of the JC7240 as plain data, block by block (00_scope.md, 1.3), its value after reset, and the
reasons a step can stop. -/

namespace Sys2Proof.Machine

/-! ## Named values of settings and fields -/

/-- The bridge operating state (R93). -/
inductive OperatingState where
  | init
  | bypass
  | active
deriving DecidableEq, Repr

/-- The read view of a STAGED window (R69). -/
inductive ReadView where
  | committed
  | pending
deriving DecidableEq, Repr

/-- A group's trigger source (02, 2.1). -/
inductive TriggerSource where
  | timer
  | external
  | manual
deriving DecidableEq, Repr

/-- A group's mode (02, 2.1). -/
inductive GroupMode where
  | merge
  | sequence
deriving DecidableEq, Repr

/-- A group's full policy (02, 2.1). -/
inductive FullPolicy where
  | hold
  | reject
deriving DecidableEq, Repr

/-- The arbiter's grant policy (R64). -/
inductive GrantPolicy where
  | rotate
  | portsFirst
  | drainFirst
deriving DecidableEq, Repr

/-- A capture channel's direction setting (R134). -/
inductive Direction where
  | read
  | write
  | both
deriving DecidableEq, Repr

/-- A capture channel's state (R134). -/
inductive ChannelState where
  | off
  | armed
  | gated
deriving DecidableEq, Repr

/-- The reason of an ERROR a port answers (R109). -/
inductive ErrorReason where
  | rejectedFull
  | holdTimeout
  | downstreamError
  | discardedByReset
deriving DecidableEq, Repr

/-- The result code of a command (R168). -/
inductive ResultCode where
  | accepted
  | busy
  | badArgument
  | badState
  | unknownCommand
deriving DecidableEq, Repr

/-! ## Stamps -/

/-- A stamp: cycle number, counter, and whether the timebase was RUNNING (R131). -/
structure Stamp where
  cycle : BitVec 32
  counter : BitVec 16
  running : Bool
deriving DecidableEq, Repr

/-! ## Window table -/

/-- The class of a window; the group and the read view are present only for STAGED (R84). -/
inductive WindowClass where
  | pass
  | staged (group : GroupId) (view : ReadView)
deriving DecidableEq, Repr

/-- A window descriptor and its count of writes in passage (R84). -/
structure Window where
  enabled : Bool
  base : Address
  limit : Address
  ports : PortSet
  cls : WindowClass
  channel : Option ChannelId
  passage : Nat
deriving DecidableEq, Repr

/-! ## Staging table -/

/-- The generation field of an entry (R2). -/
inductive Generation where
  | collecting
  | draining (sequence : BitVec 16)
deriving DecidableEq, Repr

/-- The state of a live entry (R3). -/
inductive EntryState where
  | staged
  | queued
  | writing
deriving DecidableEq, Repr

/-- A live entry of the staging pool (R2). -/
structure Entry where
  word : WordIndex
  mask : LaneSet
  data : Lanes
  group : GroupId
  gen : Generation
  state : EntryState
  contributors : PortSet
  count : Byte
deriving DecidableEq, Repr

/-- A hold record: the port of the held write, its group, the µs clock at the first refusal and the group's hold limit
as it stood then (R15). -/
structure Hold where
  port : Port
  group : GroupId
  since : BitVec 32
  limit : BitVec 12
deriving DecidableEq, Repr

/-! ## Commit groups -/

/-- The ten counts of a group, in the order of R46. -/
structure GroupCounts where
  allocated : Count
  merged : Count
  drained : Count
  failed : Count
  discarded : Count
  rejections : Count
  holdTimeouts : Count
  missedSlots : Count
  lateDrains : Count
  commitsTaken : Count
deriving DecidableEq, Repr

/-- A commit group: its settings, its commit sequence and stamp, its counts, the first-fault address the drain engine
keeps for it (R54), and the two lists the staging table keeps for it (R5). -/
structure Group where
  enabled : Bool
  trigger : TriggerSource
  slotOffset : BitVec 16
  pendingOffset : Option (BitVec 16)
  outOfRange : Bool
  mode : GroupMode
  policy : FullPolicy
  entryLimit : Byte
  holdLimit : BitVec 12
  drainBudget : BitVec 12
  logCommits : Bool
  sequence : BitVec 16
  lastCommit : Option Stamp
  firstFault : Option WordIndex
  openList : List PoolIndex
  drainList : List PoolIndex
  counts : GroupCounts
deriving DecidableEq, Repr

/-! ## Drain engine -/

/-- The phase of a generation in the drain queue (R51). -/
inductive Phase where
  | waiting
  | issuing
  | closing
deriving DecidableEq, Repr

/-- A record of the drain queue (R50). -/
structure Drain where
  group : GroupId
  sequence : BitVec 16
  stamp : Stamp
  moment : BitVec 32
  budget : BitVec 12
  phase : Phase
  next : Option PoolIndex
  outstanding : Nat
  drained : Byte
  failed : Byte
  late : Bool
deriving DecidableEq, Repr

/-- The drain engine: its queue, head first, the writes left over from RESET_DATAPATH in issue order (R61), and the line
COMMIT_BUSY (R60). -/
structure DrainEngine where
  queue : List Drain
  leftovers : List (GroupId × PoolIndex)
  commitBusy : Bool
deriving DecidableEq, Repr

/-! ## Memory port arbiter -/

/-- A requester at the arbiter (R63). -/
inductive Requester where
  | port (p : Port)
  | drain
deriving DecidableEq, Repr

/-- The owner of an outstanding request, with what R65 keeps for it: a port's tag and kind, a drain write's group and
pool index. -/
inductive Owner where
  | port (p : Port) (tag : Tag) (kind : Access)
  | drain (group : GroupId) (index : PoolIndex)
deriving DecidableEq, Repr

/-- An item of the outstanding list of port M: its owner and the request sent, with port M's own tag (R65). -/
structure Outstanding where
  owner : Owner
  sent : BusRequest
deriving DecidableEq, Repr

/-- The memory port arbiter (03, 3.8). -/
structure Arbiter where
  policy : GrantPolicy
  pointer : Requester
  escalated : Bool
  outstanding : List Outstanding
  grants : BitVec 4
deriving DecidableEq, Repr

/-! ## Upstream ports -/

/-- The path a classification gives a request (R91). -/
inductive Route where
  | pass
  | staged (group : GroupId) (view : ReadView)
deriving DecidableEq, Repr

/-- A classification, kept with the request until it is answered (R91). -/
structure Classification where
  route : Route
  window : Option WindowId
  channel : Option ChannelId
deriving DecidableEq, Repr

/-- Where a HEAD request stands (R103, R116): waiting at the arbiter; a staged write in passage, with a mark if a
RESET_DATAPATH was taken since its classification (R23); or held. -/
inductive HeadPlace where
  | waiting
  | passage (afterReset : Bool)
  | held
deriving DecidableEq, Repr

/-- A formed answer: the status, and for a READ its eight bytes (R100). -/
structure Answer where
  status : Status
  data : Option Lanes
deriving DecidableEq, Repr

/-- The progress of a request in its queue (R102). -/
inductive Progress where
  | behind
  | head (cls : Classification) (place : HeadPlace)
  | onM (cls : Classification)
  | answered (answer : Answer)
deriving DecidableEq, Repr

/-- A request in a port's queue (R101, R102). -/
structure QueuedRequest where
  request : BusRequest
  progress : Progress
deriving DecidableEq, Repr

/-- A port's last-error record (R110). -/
structure ErrorRecord where
  reason : ErrorReason
  kind : Access
  word : WordIndex
  tag : Tag
  stamp : Stamp
deriving DecidableEq, Repr

/-- The ten counts of a port, in the order of R111. -/
structure PortCounts where
  requests : Count
  passReads : Count
  passWrites : Count
  stagedPlaced : Count
  merged : Count
  forwarded : Count
  errRejected : Count
  errTimeout : Count
  errDownstream : Count
  errDiscarded : Count
deriving DecidableEq, Repr

/-- An upstream port: its request queue, oldest first, the requests its initiator presents and the port has not yet
accepted (R101), its last-error record and its counts. -/
structure PortState where
  queue : List QueuedRequest
  waiting : List BusRequest
  lastError : Option ErrorRecord
  counts : PortCounts
deriving DecidableEq, Repr

/-! ## Cycle timebase -/

/-- The cycle timebase and the µs clock (R132), with the tick divider of R117 and the divider of R118: the REFCLK periods
gone by in the current tick and in the current microsecond, and the length the current microsecond began with. -/
structure Timebase where
  running : Bool
  counter : BitVec 16
  cycle : BitVec 32
  period : BitVec 16
  pendingPeriod : Option (BitVec 16)
  prescale : Byte
  pendingPrescale : Option Byte
  syncEnable : Bool
  refFreq : Byte
  truncated : Count
  usClock : BitVec 32
  tickDivider : Byte
  usDivider : Byte
  usLength : Byte
deriving DecidableEq, Repr

/-! ## Capture unit -/

/-- A capture channel (R134). Its enabled setting is on exactly while its state is not OFF, so it is not stored apart. -/
structure Channel where
  state : ChannelState
  direction : Direction
  prescale : Byte
  gate : Bool
  rearmAtWrap : Bool
  matchValue : Lanes
  matchMask : Lanes
  recordData : Bool
  prescaleCount : Byte
  skipCount : BitVec 16
  hits : Count
  qualifying : Count
  produced : Count
deriving DecidableEq, Repr

/-- A record as its producer hands it to the capture queue (R144, R145); the payload is an ACCESS record's byte mask and
data, present when record data was on. -/
inductive CaptureRecord where
  | access (channel : ChannelId) (stamp : Stamp) (port : Port) (direction : Access) (word : WordIndex)
      (error : Bool) (payload : Option (LaneSet × Lanes)) (skipped : BitVec 16)
  | commit (group : GroupId) (sequence : BitVec 16) (stamp : Stamp) (drained failed : Byte) (late : Bool)
deriving DecidableEq, Repr

/-- A record of the capture queue with its lost count (R147). -/
structure StoredRecord where
  record : CaptureRecord
  lost : Byte
deriving DecidableEq, Repr

/-- The capture unit (08). -/
structure CaptureUnit where
  channels : Vector Channel 4
  queue : List StoredRecord
  lost : Byte
  threshold : Byte
deriving DecidableEq, Repr

/-! ## Event unit and management port -/

/-- The event unit: the cause set, the enable set and the state of IRQ_N (09). -/
structure EventUnit where
  causes : CauseSet
  enables : CauseSet
  irq : Bool
deriving DecidableEq, Repr

/-- The result of an evaluated frame: its code and its result data, as SDO clocks them out (R166). -/
structure FrameResult where
  code : ResultCode
  data : List Byte
deriving DecidableEq, Repr

/-- The pins of the management port (R166): the level of CS_N, and of the frame in progress the bits sampled on SDI up to
its evaluation, oldest first, the falling edges of SCK so far, and whether its command has been evaluated. -/
structure FramePins where
  csLow : Bool
  bits : List Bool
  falls : Nat
  evaluated : Bool
deriving DecidableEq, Repr

/-- The management port: the frame-error count, the result of the last frame evaluated, whether CS_N has been seen high
since RESET_N was released, until when what is clocked under the low CS_N is ignored (R167), and its pins. -/
structure ManagementPort where
  frameErrors : BitVec 16
  result : Option FrameResult
  listening : Bool
  pins : FramePins
deriving DecidableEq, Repr

/-! ## The edge inputs -/

/-- What the sampling with REFCLK has seen of an edge input since RESET_N rose (R182): high from the release on and not low
since, or the level it saw last. -/
inductive SeenLevel where
  | highFromRelease
  | low
  | high
deriving DecidableEq, Repr

/-- An edge input: the level the board drives, and what has been seen of it (R182). -/
structure EdgeInput where
  high : Bool
  seen : SeenLevel
deriving DecidableEq, Repr

/-- The two edge inputs. -/
structure EdgeInputs where
  syncIn : EdgeInput
  commitIn : EdgeInput
deriving DecidableEq, Repr

/-! ## The whole state -/

/-- The state of the block, and the queue of the commands that wait to be taken, first in first out. -/
structure State where
  resetLow : Bool
  op : OperatingState
  windows : Vector Window 8
  pool : Vector (Option Entry) 64
  holds : List Hold
  groups : Vector Group 4
  drain : DrainEngine
  arb : Arbiter
  portA : PortState
  portB : PortState
  tb : Timebase
  cap : CaptureUnit
  ev : EventUnit
  mgmt : ManagementPort
  inputs : EdgeInputs
  pending : List Instr
deriving DecidableEq, Repr

/-- The block has no condition that stops it: its errors are answers, result codes, causes and counts (R109, R154,
R168), so there is no fault. -/
inductive Fault where
deriving DecidableEq, Repr

/-- The reasons a command is refused. -/
inductive Refusal where
  /-- Raised by exec's arm of a command that has no meaning yet. Safe: the model stops where the block goes on. -/
  | notModelled (mnemonic : String)
  /-- Raised by REQUEST_ACCEPT, UNKNOWN_COMMAND and PUT_SETTING_UNKNOWN_ITEM for a term that spells no happening of the
  row: a write with no lane (R100), a byte that names a command (R166), an item number that names an item (R172).
  Safe: no interface of the block can carry such a term. -/
  | illFormed (mnemonic : String)
deriving DecidableEq, Repr

/-! ## After reset -/

/-- A window descriptor after RESET_N (R84). -/
def Window.reset : Window where
  enabled := false
  base := 0
  limit := 0
  ports := 3
  cls := .pass
  channel := none
  passage := 0

/-- Ten counts at 0 (R46). -/
def GroupCounts.reset : GroupCounts := ⟨0, 0, 0, 0, 0, 0, 0, 0, 0, 0⟩

/-- A group after RESET_N (R49). -/
def Group.reset : Group where
  enabled := false
  trigger := .manual
  slotOffset := 0
  pendingOffset := none
  outOfRange := false
  mode := .merge
  policy := .reject
  entryLimit := 16
  holdLimit := 0
  drainBudget := 0
  logCommits := false
  sequence := 0
  lastCommit := none
  firstFault := none
  openList := []
  drainList := []
  counts := GroupCounts.reset

/-- A port after RESET_N (R115). -/
def PortState.reset : PortState where
  queue := []
  waiting := []
  lastError := none
  counts := ⟨0, 0, 0, 0, 0, 0, 0, 0, 0, 0⟩

/-- The arbiter after RESET_N (R66). -/
def Arbiter.reset : Arbiter where
  policy := .rotate
  pointer := .port .a
  escalated := false
  outstanding := []
  grants := 0

/-- The timebase after RESET_N (R132, R133). DESIGN CHOICE: the dividers stand at 0 and the microsecond that begins has
the length of the default reference frequency (notes/assumptions/7.md). -/
def Timebase.reset : Timebase where
  running := false
  counter := 0
  cycle := 0
  period := 1000
  pendingPeriod := none
  prescale := 0
  pendingPrescale := none
  syncEnable := false
  refFreq := 50
  truncated := 0
  usClock := 0
  tickDivider := 0
  usDivider := 0
  usLength := 50

/-- A channel after RESET_N (R134, R153). -/
def Channel.reset : Channel where
  state := .off
  direction := .write
  prescale := 0
  gate := false
  rearmAtWrap := false
  matchValue := Vector.replicate 8 0
  matchMask := Vector.replicate 8 0
  recordData := false
  prescaleCount := 0
  skipCount := 0
  hits := 0
  qualifying := 0
  produced := 0

/-- The capture unit after RESET_N (R153). -/
def CaptureUnit.reset : CaptureUnit where
  channels := Vector.replicate 4 Channel.reset
  queue := []
  lost := 0
  threshold := 1

/-- The pins with no frame in progress, at a level of CS_N. -/
def FramePins.idle (csLow : Bool) : FramePins := ⟨csLow, [], 0, false⟩

/-- The block right after the release of RESET_N: every block in its starting state (R180), the operating state INIT and
the µs clock at 0 (R181), nothing waiting. DEDUCED: the moment of State.reset (notes/assumptions/1.md). DESIGN CHOICE:
CS_N is high at that moment, so the port listens (notes/assumptions/30.md), and SYNC_IN and COMMIT_IN are low
(notes/assumptions/32.md). -/
def State.reset : State where
  resetLow := false
  op := .init
  windows := Vector.replicate 8 Window.reset
  pool := Vector.replicate 64 none
  holds := []
  groups := Vector.replicate 4 Group.reset
  drain := ⟨[], [], false⟩
  arb := Arbiter.reset
  portA := PortState.reset
  portB := PortState.reset
  tb := Timebase.reset
  cap := CaptureUnit.reset
  ev := ⟨0, 0, false⟩
  mgmt := ⟨0, none, true, FramePins.idle false⟩
  inputs := ⟨⟨false, .low⟩, ⟨false, .low⟩⟩
  pending := []

end Sys2Proof.Machine
end

