-- ==== Sys2Proof/Machine/Flags.lean ====
section
/-! DEFINITION. The flag computations of the block: the nineteen causes and their places (R169), setting and clearing
them, the level CAPTURE_READY, and IRQ_N (chapter 9); counts that saturate. -/

namespace Sys2Proof.Machine

/-- The causes (R154). -/
inductive Cause where
  | slotMissed (group : GroupId)
  | drainLate (group : GroupId)
  | drainFault (group : GroupId)
  | stageReject
  | holdTimeout
  | passFault
  | slotRange
  | truncated
  | captureLost
  | captureReady
deriving DecidableEq, Repr

/-- The member number of a cause in a set of causes (R169). -/
def Cause.member : Cause → Nat
  | .slotMissed g => g.val
  | .drainLate g => 4 + g.val
  | .drainFault g => 8 + g.val
  | .stageReject => 12
  | .holdTimeout => 13
  | .passFault => 14
  | .slotRange => 15
  | .truncated => 16
  | .captureLost => 17
  | .captureReady => 18

/-- The set that holds one cause. -/
def Cause.asSet (c : Cause) : CauseSet := BitVec.twoPow 19 c.member

/-- The eighteen sticky causes: every cause but CAPTURE_READY (R154). -/
def stickyCauses : CauseSet := ~~~Cause.captureReady.asSet

/-- The pending set: the causes both set and enabled (R158). -/
def EventUnit.pendingSet (e : EventUnit) : CauseSet := e.causes &&& e.enables

/-- IRQ_N re-evaluated: asserted exactly while the pending set is not empty (R158). -/
def EventUnit.evaluated (e : EventUnit) : EventUnit := { e with irq := decide (e.pendingSet ≠ 0) }

/-- A block sets a sticky cause (R155). -/
def EventUnit.raise (c : Cause) (e : EventUnit) : EventUnit :=
  { e with causes := e.causes ||| c.asSet }.evaluated

/-- The capture unit gives the level CAPTURE_READY (R156). -/
def EventUnit.ready (on : Bool) (e : EventUnit) : EventUnit :=
  { e with causes := if on then e.causes ||| Cause.captureReady.asSet else e.causes &&& stickyCauses }.evaluated

/-- The named sticky causes become clear; CAPTURE_READY stays (R159). -/
def EventUnit.clear (named : CauseSet) (e : EventUnit) : EventUnit :=
  { e with causes := e.causes &&& ~~~(named &&& stickyCauses) }.evaluated

/-- The enable set is replaced whole (R157). -/
def EventUnit.enable (set : CauseSet) (e : EventUnit) : EventUnit := { e with enables := set }.evaluated

/-- A count that stays at its largest value (R2 write count, R134 skip count, R147 lost counter, R167). -/
def saturatingSucc {w : Nat} (x : BitVec w) : BitVec w := if x = BitVec.allOnes w then x else x + 1#w

end Sys2Proof.Machine
end

