-- ==== Sys2Proof/Decode.lean ====
section
/-! DEFINITION. What a management frame's bytes spell (R166, R172 and the tables of chapter 10), and the frame that
spells a command. spec/opcode_table.json gives no row any bits, so decodeTableWord answers none for every word. -/

namespace Sys2Proof

/-- The command a word spells by the table's bits: the table gives none of its rows any bits. -/
def decodeTableWord (_nbits _w : Nat) : Option Instr := none

/-- The number of value bytes of a setting item, and none for a number that names no item (10.4). -/
def settingValueBytes (item : Byte) : Option Nat :=
  match item.toNat with
  | 1 | 2 | 4 | 5 | 6 => some 1
  | 3 => some 2
  | 16 | 17 | 19 | 20 | 21 | 24 => some 1
  | 18 | 22 | 23 => some 2
  | 32 | 33 | 34 | 35 | 36 | 38 => some 1
  | 37 => some 16
  | _ => none

/-- A command byte that names one of the twenty commands of 10.3: 01h to 14h. -/
def namesCommand (command : Byte) : Bool := decide (1 ≤ command.toNat ∧ command.toNat ≤ 20)

/-- A two-byte number, least significant byte first (R169). -/
def word16 (lo hi : Byte) : BitVec 16 := hi ++ lo

/-- A three-byte number, least significant byte first (R169). -/
def word24 (b0 b1 b2 : Byte) : BitVec 24 := b2 ++ b1 ++ b0

/-- A five-byte number, least significant byte first (R169). -/
def word40 (b0 b1 b2 b3 b4 : Byte) : BitVec 40 := b4 ++ b3 ++ b2 ++ b1 ++ b0

/-- Byte n of a number, counted from the least significant. -/
def byteOf {w : Nat} (x : BitVec w) (n : Nat) : Byte := x.extractLsb' (8 * n) 8

/-- The PUT_SETTING row that the item, index and value bytes of a frame spell, once its last value byte is there
(R172); a number that names no item is evaluated at its index byte. -/
def decodePutSetting (item index : Byte) (value : List Byte) : Option Instr :=
  match item.toNat, value with
  | 1, v :: _ => some (.putSettingReferenceFrequency index v)
  | 2, v :: _ => some (.putSettingTimebasePrescale index v)
  | 3, lo :: hi :: _ => some (.putSettingPeriod index (word16 lo hi))
  | 4, v :: _ => some (.putSettingSyncEnable index v)
  | 5, v :: _ => some (.putSettingGrantPolicy index v)
  | 6, v :: _ => some (.putSettingCaptureThreshold index v)
  | 16, v :: _ => some (.putSettingGroupEnabled index v)
  | 17, v :: _ => some (.putSettingTriggerSource index v)
  | 18, lo :: hi :: _ => some (.putSettingSlotOffset index (word16 lo hi))
  | 19, v :: _ => some (.putSettingMode index v)
  | 20, v :: _ => some (.putSettingFullPolicy index v)
  | 21, v :: _ => some (.putSettingEntryLimit index v)
  | 22, lo :: hi :: _ => some (.putSettingHoldLimit index (word16 lo hi))
  | 23, lo :: hi :: _ => some (.putSettingDrainBudget index (word16 lo hi))
  | 24, v :: _ => some (.putSettingLogCommits index v)
  | 32, v :: _ => some (.putSettingChannelEnabled index v)
  | 33, v :: _ => some (.putSettingDirection index v)
  | 34, v :: _ => some (.putSettingChannelPrescale index v)
  | 35, v :: _ => some (.putSettingGate index v)
  | 36, v :: _ => some (.putSettingRearmAtWrap index v)
  | 37, v0 :: v1 :: v2 :: v3 :: v4 :: v5 :: v6 :: v7 :: m0 :: m1 :: m2 :: m3 :: m4 :: m5 :: m6 :: m7 :: _ =>
      some (.putSettingMatch index #v[v0, v1, v2, v3, v4, v5, v6, v7] #v[m0, m1, m2, m3, m4, m5, m6, m7])
  | 38, v :: _ => some (.putSettingRecordData index v)
  | _, _ => match settingValueBytes item with
    | none => some (.putSettingUnknownItem item index)
    | some _ => none

/-- The command that the SDI bytes of a frame spell, once the command is evaluated (R166): none while the last argument
byte is not complete. Bytes after it are ignored. -/
def decodeFrame (sdi : List Byte) : Option Instr :=
  match sdi with
  | [] => none
  | command :: args =>
    match command.toNat, args with
    | 0x01, item :: index :: _ => some (.getSetting item index)
    | 0x02, item :: index :: value => decodePutSetting item index value
    | 0x03, w :: b0 :: b1 :: b2 :: b3 :: b4 :: l0 :: l1 :: l2 :: l3 :: l4 :: ps :: cls :: g :: v :: cp :: cc :: _ =>
        some (.putWindow w (word40 b0 b1 b2 b3 b4) (word40 l0 l1 l2 l3 l4) ps cls g v cp cc)
    | 0x04, w :: _ => some (.enableWindow w)
    | 0x05, w :: _ => some (.disableWindow w)
    | 0x06, w :: _ => some (.readWindow w)
    | 0x07, block :: _ => some (.readStatus block)
    | 0x08, index :: _ => some (.readEntry index)
    | 0x09, _ => some .popCapture
    | 0x0A, groups :: _ => some (.commitNow groups)
    | 0x0B, group :: _ => some (.abortGroup group)
    | 0x0C, channels :: _ => some (.rearm channels)
    | 0x0D, _ => some .startTimebase
    | 0x0E, _ => some .stopTimebase
    | 0x0F, _ => some .enableBridge
    | 0x10, _ => some .disableBridge
    | 0x11, _ => some .resetDatapath
    | 0x12, c0 :: c1 :: c2 :: _ => some (.clearCauses (word24 c0 c1 c2))
    | 0x13, c0 :: c1 :: c2 :: _ => some (.setEnables (word24 c0 c1 c2))
    | 0x14, _ => some .readIdentity
    | _, _ => if namesCommand command then none else some (.unknownCommand command)

/-- The row that a frame is, from the falling to the rising edge of CS_N, by its whole SDI bytes and its count of rising
edges of SCK: the command the bytes spell, or a partial frame (R167). -/
def frameRow (sdi : List Byte) (sckEdges : Nat) : Instr := (decodeFrame sdi).getD (.partialFrame sckEdges)

/-- The command byte and argument bytes of the frame that spells a command; none for a row that is no frame with a
command (10.3, 10.4). -/
def encodeFrame (i : Instr) : Option (List Byte) :=
  let put (item : Byte) (index : Byte) (value : List Byte) : Option (List Byte) := some ([0x02#8, item, index] ++ value)
  let two (v : BitVec 16) : List Byte := [byteOf v 0, byteOf v 1]
  match i with
  | .unknownCommand command => some [command]
  | .getSetting item index => some [0x01#8, item, index]
  | .putSettingReferenceFrequency index v => put 1#8 index [v]
  | .putSettingTimebasePrescale index v => put 2#8 index [v]
  | .putSettingPeriod index v => put 3#8 index (two v)
  | .putSettingSyncEnable index v => put 4#8 index [v]
  | .putSettingGrantPolicy index v => put 5#8 index [v]
  | .putSettingCaptureThreshold index v => put 6#8 index [v]
  | .putSettingGroupEnabled index v => put 16#8 index [v]
  | .putSettingTriggerSource index v => put 17#8 index [v]
  | .putSettingSlotOffset index v => put 18#8 index (two v)
  | .putSettingMode index v => put 19#8 index [v]
  | .putSettingFullPolicy index v => put 20#8 index [v]
  | .putSettingEntryLimit index v => put 21#8 index [v]
  | .putSettingHoldLimit index v => put 22#8 index (two v)
  | .putSettingDrainBudget index v => put 23#8 index (two v)
  | .putSettingLogCommits index v => put 24#8 index [v]
  | .putSettingChannelEnabled index v => put 32#8 index [v]
  | .putSettingDirection index v => put 33#8 index [v]
  | .putSettingChannelPrescale index v => put 34#8 index [v]
  | .putSettingGate index v => put 35#8 index [v]
  | .putSettingRearmAtWrap index v => put 36#8 index [v]
  | .putSettingMatch index value mask => put 37#8 index (value.toList ++ mask.toList)
  | .putSettingRecordData index v => put 38#8 index [v]
  | .putSettingUnknownItem item index => put item index []
  | .putWindow w base limit ps cls g v cp cc =>
      some [0x03#8, w, byteOf base 0, byteOf base 1, byteOf base 2, byteOf base 3, byteOf base 4,
        byteOf limit 0, byteOf limit 1, byteOf limit 2, byteOf limit 3, byteOf limit 4, ps, cls, g, v, cp, cc]
  | .enableWindow w => some [0x04#8, w]
  | .disableWindow w => some [0x05#8, w]
  | .readWindow w => some [0x06#8, w]
  | .readStatus block => some [0x07#8, block]
  | .readEntry index => some [0x08#8, index]
  | .popCapture => some [0x09#8]
  | .commitNow groups => some [0x0A#8, groups]
  | .abortGroup group => some [0x0B#8, group]
  | .rearm channels => some [0x0C#8, channels]
  | .startTimebase => some [0x0D#8]
  | .stopTimebase => some [0x0E#8]
  | .enableBridge => some [0x0F#8]
  | .disableBridge => some [0x10#8]
  | .resetDatapath => some [0x11#8]
  | .clearCauses c => some [0x12#8, byteOf c 0, byteOf c 1, byteOf c 2]
  | .setEnables c => some [0x13#8, byteOf c 0, byteOf c 1, byteOf c 2]
  | .readIdentity => some [0x14#8]
  | .resetNAssert => none
  | .resetNRelease => none
  | .initComplete => none
  | .usClockAdvance => none
  | .counterStep => none
  | .naturalWrap => none
  | .syncInEdge => none
  | .commitInEdge => none
  | .holdLimitExpiry _ => none
  | .drainBudgetExpiry _ => none
  | .requestAccept _ _ => none
  | .stagedWritePlacement _ => none
  | .grant => none
  | .memoryResponse _ _ _ => none
  | .responseTaken _ => none
  | .partialFrame _ => none

end Sys2Proof
end

