-- ==== Sys2Proof/Machine/Operands.lean ====
section
/-! DEFINITION. The operand forms of the block: lanes and byte masks, addresses and window ranges, the reading of
argument bytes, and the encodings of result bytes (R169). -/

namespace Sys2Proof

/-! ## Lanes -/

/-- Eight zero bytes. -/
def Lanes.zero : Lanes := Vector.replicate 8 0

/-- The written lanes of a word: the lanes of the mask from the write, every other lane from the word before (R8). -/
def Lanes.overlay (mask : LaneSet) (new old : Lanes) : Lanes :=
  Vector.ofFn fun i => if mask.getLsbD i then new[i] else old[i]

/-- The data in the masked lanes, with zero in the other lanes (R52, R144, R175). -/
def Lanes.masked (mask : LaneSet) (data : Lanes) : Lanes := Lanes.overlay mask data Lanes.zero

/-- The byte address of a word's first byte. -/
def WordIndex.address (w : WordIndex) : Address := w ++ 0#3

/-- The word that lies at a byte address that is a multiple of 8. -/
def wordAt (a : Address) : WordIndex := a.extractLsb' 3 33

/-! ## Requests -/

/-- A request's word address. -/
def BusRequest.word : BusRequest → WordIndex
  | .read w _ => w
  | .write w _ _ _ => w

/-- A request's tag. -/
def BusRequest.tag : BusRequest → Tag
  | .read _ t => t
  | .write _ _ _ t => t

/-- A request's kind. -/
def BusRequest.kind : BusRequest → Access
  | .read _ _ => .read
  | .write _ _ _ _ => .write

/-- The same request under port M's own tag (R65). -/
def BusRequest.withTag (t : Tag) : BusRequest → BusRequest
  | .read w _ => .read w t
  | .write w m d _ => .write w m d t

/-- A port as a set of ports: A is member 0 and B member 1 (R169). -/
def Port.asSet : Port → PortSet
  | .a => 1
  | .b => 2

end Sys2Proof

namespace Sys2Proof.Machine

/-! ## Windows -/

/-- A window contains a word when the word address lies from its base to the last byte of the page at its limit (R85). -/
def Window.contains (w : Window) (word : WordIndex) : Bool :=
  decide (w.base.toNat ≤ word.address.toNat ∧ word.address.toNat < w.limit.toNat + Config.pageBytes)

/-- A window applies to a port of its port set (R85). -/
def Window.appliesTo (w : Window) (p : Port) : Bool := decide (w.ports &&& p.asSet ≠ 0)

/-- Two windows overlap when some byte address lies in both ranges (R85). -/
def Window.overlaps (v w : Window) : Bool :=
  decide (v.base.toNat < w.limit.toNat + Config.pageBytes ∧ w.base.toNat < v.limit.toNat + Config.pageBytes)

/-- Two windows share a port when their port sets have one in common (R85). -/
def Window.sharesPort (v w : Window) : Bool := decide (v.ports &&& w.ports ≠ 0)

/-- An enabled STAGED window that names the group (R28). -/
def Window.names (w : Window) (g : GroupId) : Bool :=
  match w.cls with
  | .staged h _ => w.enabled && decide (h = g)
  | .pass => false

/-! ## Argument bytes -/

/-- A number below n in an argument byte (R169). -/
def argBelow (n : Nat) (b : Byte) : Option (Fin n) := if h : b.toNat < n then some ⟨b.toNat, h⟩ else none

/-- An on/off value: 0 for off and 1 for on (R169). -/
def argSwitch (b : Byte) : Option Bool :=
  match b.toNat with
  | 0 => some false
  | 1 => some true
  | _ => none

/-- An address argument: below 1000000000h (R169). -/
def argAddress (a : BitVec 40) : Option Address := if a.toNat < 2 ^ 36 then some (a.setWidth 36) else none

/-- A base or limit argument: an address that is a multiple of 4096 (R86, R174). -/
def argPage (a : BitVec 40) : Option Address :=
  match argAddress a with
  | some x => if x.toNat % Config.pageBytes = 0 then some x else none
  | none => none

/-- A port-set argument: members A and B only, and not empty (R86, R174). -/
def argPorts (b : Byte) : Option PortSet := if 1 ≤ b.toNat ∧ b.toNat ≤ 3 then some (b.setWidth 2) else none

/-- The class arguments of PUT_WINDOW: for a PASS window the group and view bytes are not checked (R86). -/
def argClass (cls group view : Byte) : Option WindowClass :=
  match cls.toNat with
  | 0 => some .pass
  | 1 => match argBelow 4 group, view.toNat with
    | some g, 0 => some (.staged g .committed)
    | some g, 1 => some (.staged g .pending)
    | _, _ => none
  | _ => none

/-- The capture channel arguments of PUT_WINDOW: under a presence byte of 00h the channel byte is not checked (R174). -/
def argChannel (present channel : Byte) : Option (Option ChannelId) :=
  match present.toNat with
  | 0 => some none
  | 1 => match argBelow 4 channel with
    | some c => some (some c)
    | none => none
  | _ => none

/-- A set of four in an argument byte; a member above 3 makes it no such set (R169, R176). -/
def argFour (b : Byte) : Option (BitVec 4) := if b.toNat < 16 then some (b.setWidth 4) else none

/-- A set of causes in three bytes; a member above 18 makes it no such set (R178). -/
def argCauses (b : BitVec 24) : Option CauseSet := if b.toNat < 2 ^ 19 then some (b.setWidth 19) else none

/-- A grant policy code (10.4, item 5). -/
def argGrantPolicy (b : Byte) : Option GrantPolicy :=
  match b.toNat with
  | 0 => some .rotate
  | 1 => some .portsFirst
  | 2 => some .drainFirst
  | _ => none

/-- A trigger source code (10.4, item 17). -/
def argTrigger (b : Byte) : Option TriggerSource :=
  match b.toNat with
  | 0 => some .timer
  | 1 => some .external
  | 2 => some .manual
  | _ => none

/-- A mode code (10.4, item 19). -/
def argMode (b : Byte) : Option GroupMode :=
  match b.toNat with
  | 0 => some .merge
  | 1 => some .sequence
  | _ => none

/-- A full policy code (10.4, item 20). -/
def argPolicy (b : Byte) : Option FullPolicy :=
  match b.toNat with
  | 0 => some .hold
  | 1 => some .reject
  | _ => none

/-- A direction code (10.4, item 33). -/
def argDirection (b : Byte) : Option Direction :=
  match b.toNat with
  | 0 => some .read
  | 1 => some .write
  | 2 => some .both
  | _ => none

/-- A byte within a range (10.4: reference frequency, capture threshold, entry limit). -/
def argRange (lo hi : Nat) (b : Byte) : Option Byte := if lo ≤ b.toNat ∧ b.toNat ≤ hi then some b else none

/-- A time of 0-4095 µs (10.4, items 22 and 23). -/
def argMicroseconds (v : BitVec 16) : Option (BitVec 12) := if v.toNat < 4096 then some (v.setWidth 12) else none

/-- A period of 2-65535 ticks (R125). -/
def argPeriod (v : BitVec 16) : Option (BitVec 16) := if 2 ≤ v.toNat then some v else none

/-! ## Result bytes -/

/-- A number in n bytes, least significant byte first (R169). -/
def bytesLE {w : Nat} (n : Nat) (x : BitVec w) : List Byte := (List.range n).map (byteOf x)

/-- A natural number below 256 as one byte. -/
def byteNat (n : Nat) : List Byte := [BitVec.ofNat 8 n]

/-- An on/off item: 0 for off and 1 for on (R169). -/
def byteBool (b : Bool) : List Byte := [if b then 1 else 0]

/-- An item that may be absent: a presence byte, then its bytes, zero when absent (R169). -/
def optionally (len : Nat) : Option (List Byte) → List Byte
  | none => 0 :: List.replicate len 0
  | some bytes => 1 :: bytes

/-- A list of varying length: a count byte, then its elements (R169). -/
def countedList (elements : List (List Byte)) : List Byte := byteNat elements.length ++ elements.flatten

/-- A word address as five bytes (R169). -/
def bytesWord (w : WordIndex) : List Byte := bytesLE 5 w.address

/-- A stamp: cycle number, counter, running flag (R169). -/
def bytesStamp (t : Stamp) : List Byte := bytesLE 4 t.cycle ++ bytesLE 2 t.counter ++ byteBool t.running

/-- The members of a set of n as a number (R169). -/
def setByte (n : Nat) (member : Fin n → Bool) : List Byte :=
  byteNat (((List.finRange n).map fun i => if member i then 2 ^ i.val else 0).sum)

/-! Choices are numbered from 0 in the order the owning chapter lists the values (R169). -/

def OperatingState.code : OperatingState → Byte
  | .init => 0
  | .bypass => 1
  | .active => 2

def ReadView.code : ReadView → Byte
  | .committed => 0
  | .pending => 1

def TriggerSource.code : TriggerSource → Byte
  | .timer => 0
  | .external => 1
  | .manual => 2

def GroupMode.code : GroupMode → Byte
  | .merge => 0
  | .sequence => 1

def FullPolicy.code : FullPolicy → Byte
  | .hold => 0
  | .reject => 1

def GrantPolicy.code : GrantPolicy → Byte
  | .rotate => 0
  | .portsFirst => 1
  | .drainFirst => 2

def Direction.code : Direction → Byte
  | .read => 0
  | .write => 1
  | .both => 2

def ChannelState.code : ChannelState → Byte
  | .off => 0
  | .armed => 1
  | .gated => 2

def ErrorReason.code : ErrorReason → Byte
  | .rejectedFull => 0
  | .holdTimeout => 1
  | .downstreamError => 2
  | .discardedByReset => 3

def Phase.code : Phase → Byte
  | .waiting => 0
  | .issuing => 1
  | .closing => 2

def EntryState.code : EntryState → Byte
  | .staged => 1
  | .queued => 2
  | .writing => 3

def Progress.code : Progress → Byte
  | .behind => 0
  | .head _ _ => 1
  | .onM _ => 2
  | .answered _ => 3

def HeadPlace.code : HeadPlace → Byte
  | .waiting => 0
  | .passage _ => 1
  | .held => 2

def Requester.code : Requester → Byte
  | .port .a => 0
  | .port .b => 1
  | .drain => 2

def Owner.code : Owner → Byte
  | .port .a _ _ => 0
  | .port .b _ _ => 1
  | .drain _ _ => 2

/-- The result code byte (R168). -/
def ResultCode.code : ResultCode → Byte
  | .accepted => 0
  | .busy => 1
  | .badArgument => 2
  | .badState => 3
  | .unknownCommand => 4

/-- A request's kind, READ 0 and WRITE 1 (R169). -/
def accessCode : Access → Byte
  | .read => 0
  | .write => 1

/-- A port, A 0 and B 1 (10.6). -/
def portCode : Port → Byte
  | .a => 0
  | .b => 1

/-! ## Sets of four as lists -/

/-- The members of a set of groups or channels, in ascending order (R34). -/
def members (set : BitVec 4) : List (Fin 4) := (List.finRange 4).filter fun i => set.getLsbD i

/-- A list of groups or channels as a set. -/
def setOf (list : List (Fin 4)) : List Byte := setByte 4 fun i => decide (i ∈ list)

end Sys2Proof.Machine
end

