-- ==== Sys2Proof/Machine/Ops.lean ====
section
/-! DEFINITION. The named operations over the registers of the block, which every meaning uses: one update per block of
state, the numbered parts (groups, windows, channels, pool entries), stamps, timers, causes, results of frames, and the
guard of RESET_N. -/

namespace Sys2Proof.Machine

/-! ## One update per block of state -/

def State.withOp (x : OperatingState) (s : State) : State := { s with op := x }
def State.withWindows (x : Vector Window 8) (s : State) : State := { s with windows := x }
def State.withPool (x : Vector (Option Entry) 64) (s : State) : State := { s with pool := x }
def State.withHolds (x : List Hold) (s : State) : State := { s with holds := x }
def State.withGroups (x : Vector Group 4) (s : State) : State := { s with groups := x }
def State.withDrain (x : DrainEngine) (s : State) : State := { s with drain := x }
def State.withArb (x : Arbiter) (s : State) : State := { s with arb := x }
def State.withPortA (x : PortState) (s : State) : State := { s with portA := x }
def State.withPortB (x : PortState) (s : State) : State := { s with portB := x }
def State.withTb (x : Timebase) (s : State) : State := { s with tb := x }
def State.withCap (x : CaptureUnit) (s : State) : State := { s with cap := x }
def State.withEv (x : EventUnit) (s : State) : State := { s with ev := x }
def State.withMgmt (x : ManagementPort) (s : State) : State := { s with mgmt := x }
def State.withInputs (x : EdgeInputs) (s : State) : State := { s with inputs := x }

/-! ## The numbered parts -/

/-- The state of an upstream port. -/
def State.port (p : Port) (s : State) : PortState :=
  match p with
  | .a => s.portA
  | .b => s.portB

/-- An upstream port replaced. -/
def State.withPort (p : Port) (x : PortState) (s : State) : State :=
  match p with
  | .a => s.withPortA x
  | .b => s.withPortB x

/-- A commit group. -/
def State.group (g : GroupId) (s : State) : Group := s.groups[g]

/-- A commit group replaced. -/
def State.withGroup (g : GroupId) (x : Group) (s : State) : State := s.withGroups (s.groups.set g x)

/-- A window. -/
def State.window (w : WindowId) (s : State) : Window := s.windows[w]

/-- A window replaced. -/
def State.withWindow (w : WindowId) (x : Window) (s : State) : State := s.withWindows (s.windows.set w x)

/-- A capture channel. -/
def State.channel (c : ChannelId) (s : State) : Channel := s.cap.channels[c]

/-- A capture channel replaced. -/
def State.withChannel (c : ChannelId) (x : Channel) (s : State) : State :=
  s.withCap { s.cap with channels := s.cap.channels.set c x }

/-- The entry at a pool index; none when the entry is free (R1). -/
def State.entry (i : PoolIndex) (s : State) : Option Entry := s.pool[i]

/-- One change to each live entry of a list of pool indices. -/
def updateEntries (indices : List PoolIndex) (f : Entry → Entry) (pool : Vector (Option Entry) 64) :
    Vector (Option Entry) 64 :=
  Vector.ofFn fun i => if i ∈ indices then pool[i].map f else pool[i]

/-- The entries of a list of pool indices freed: a free entry has no fields (R1). -/
def freeEntries (indices : List PoolIndex) (pool : Vector (Option Entry) 64) : Vector (Option Entry) 64 :=
  Vector.ofFn fun i => if i ∈ indices then none else pool[i]

/-- The entry at an index is in the given state. -/
def State.entryIs (st : EntryState) (s : State) (i : PoolIndex) : Bool :=
  match s.entry i with
  | some e => decide (e.state = st)
  | none => false

/-- The free entry with the lowest pool index (R4). -/
def State.lowestFree (s : State) : Option PoolIndex := (List.finRange 64).find? fun i => (s.entry i).isNone

/-! ## Counts -/

/-- One more on a group's counts. -/
def State.countGroup (g : GroupId) (f : GroupCounts → GroupCounts) (s : State) : State :=
  s.withGroup g { s.group g with counts := f (s.group g).counts }

/-- One more on a port's counts. -/
def State.countPort (p : Port) (f : PortCounts → PortCounts) (s : State) : State :=
  s.withPort p { s.port p with counts := f (s.port p).counts }

/-! ## Time -/

/-- The stamp of a happening taken now (R131). -/
def State.now (s : State) : Stamp := ⟨s.tb.cycle, s.tb.counter, s.tb.running⟩

/-- The counts of the µs clock since a moment, modulo 2^32 (R119). -/
def State.microsecondsSince (since : BitVec 32) (s : State) : Nat := (s.tb.usClock - since).toNat

/-! ## Causes -/

/-- A block sets a sticky cause (R155). -/
def State.raise (c : Cause) (s : State) : State := s.withEv (s.ev.raise c)

/-- The capture unit re-evaluates CAPTURE_READY and hands it to the event unit (R149, R156). -/
def State.refreshReady (s : State) : State :=
  s.withEv (s.ev.ready (decide (s.cap.threshold.toNat ≤ s.cap.queue.length)))

/-! ## Group states -/

/-- The five states of a group (R33). -/
inductive GroupState where
  | off
  | idle
  | collecting
  | draining
  | drainCollecting
deriving DecidableEq, Repr

/-- The state of a group, read from its enabled setting and its two lists (R33). -/
def Group.state (g : Group) : GroupState :=
  match g.openList, g.drainList with
  | [], [] => if g.enabled then .idle else .off
  | _ :: _, [] => .collecting
  | [], _ :: _ => .draining
  | _ :: _, _ :: _ => .drainCollecting

def GroupState.code : GroupState → Byte
  | .off => 0
  | .idle => 1
  | .collecting => 2
  | .draining => 3
  | .drainCollecting => 4

/-- A group that is DRAINING or DRAIN_COLLECTING (R37, R38). -/
def Group.isDraining (g : Group) : Bool := !g.drainList.isEmpty

/-- A group that is IDLE or OFF (R29). -/
def Group.isQuiet (g : Group) : Bool := g.openList.isEmpty && g.drainList.isEmpty

/-! ## Results of frames -/

/-- The result of a frame: a code and its result data, formed at evaluation (R166). -/
def State.reply (code : ResultCode) (data : List Byte) (s : State) : State :=
  s.withMgmt { s.mgmt with result := some ⟨code, data⟩ }

/-- A refusal: no state changes in any block, and the result data is zero in its full length (R168). -/
def State.refuse (code : ResultCode) (length : Nat) (s : State) : State := s.reply code (List.replicate length 0)

/-- An acceptance without result data. -/
def State.accept (s : State) : State := s.reply .accepted []

/-- Byte number k of a frame on SDO, when its command has the given number of argument bytes (10.6): 00h through the
command and argument bytes, the result code, the result data, 00h after it. -/
def FrameResult.sdoByte (r : FrameResult) (arguments k : Nat) : Byte :=
  if k ≤ arguments then 0
  else if k = arguments + 1 then r.code.code
  else r.data.getD (k - arguments - 2) 0

/-- A command judged with the INIT check first (R168): while the bridge is INIT it is answered BAD_STATE, with as many
zero bytes as its result data has. -/
def State.unlessInit (length : Nat) (f : State → State) (s : State) : State :=
  if s.op = .init then s.refuse .badState length else f s

/-! ## RESET_N -/

/-- While RESET_N is low a row changes nothing: every block holds its starting state and answers no one (R180). -/
def State.awake (f : State → State) (s : State) : State := if s.resetLow then s else f s

/-- A row that is a frame: heard by the port, unless its CS_N has been low since RESET_N was released. The bytes of such a
frame are ignored and not counted, and the port listens from its end on (R167). -/
def State.hearing (f : State → State) (s : State) : State :=
  s.awake fun s => if s.mgmt.listening then f s else s.withMgmt { s.mgmt with listening := true }

/-! ## SYNC_IN and COMMIT_IN (R182) -/

/-- An edge input from the release of RESET_N on: a line that is high then gives no edge until it has been seen low.
DESIGN CHOICE: a line that is low then counts as seen low (notes/assumptions/32.md). -/
def EdgeInput.released (x : EdgeInput) : EdgeInput := { x with seen := if x.high then .highFromRelease else .low }

/-- The line has been seen low since RESET_N rose. -/
def EdgeInput.hasBeenLow (x : EdgeInput) : Bool := decide (x.seen ≠ .highFromRelease)

/-- A sample of the line takes a rising edge: it sees it high after having seen it low. -/
def EdgeInput.rises (x : EdgeInput) : Bool := x.high && decide (x.seen = .low)

/-- What has been seen of the line after a sample. -/
def EdgeInput.sampled (x : EdgeInput) : EdgeInput :=
  { x with seen := if x.high then (if x.seen = .low then .high else x.seen) else .low }

/-- Both lines sampled. -/
def EdgeInputs.sampled (x : EdgeInputs) : EdgeInputs := ⟨x.syncIn.sampled, x.commitIn.sampled⟩

/-- The board drives SYNC_IN. -/
def State.driveSyncIn (high : Bool) (s : State) : State :=
  s.withInputs { s.inputs with syncIn := { s.inputs.syncIn with high := high } }

/-- The board drives COMMIT_IN. -/
def State.driveCommitIn (high : Bool) (s : State) : State :=
  s.withInputs { s.inputs with commitIn := { s.inputs.commitIn with high := high } }

/-- A row that is an edge of an input. While the line, high since RESET_N rose, has not been seen low, it gives no edge
(R182). DESIGN CHOICE: the row changes nothing then (notes/assumptions/32.md). -/
def State.onEdge (line : EdgeInput) (f : State → State) (s : State) : State :=
  s.awake fun s => if line.hasBeenLow then f s else s

/-! ## The starting state -/

/-- Every block in its starting state (R180), the management port listening or waiting for CS_N to be high, a frame in
progress abandoned (R167), the edge inputs as their levels leave them (R182). The levels of CS_N, SYNC_IN and COMMIT_IN are
the board's, and the queue of waiting commands no part of the block. -/
def State.startingState (low listening : Bool) (s : State) : State :=
  { State.reset with
    resetLow := low
    mgmt := { State.reset.mgmt with listening := listening, pins := FramePins.idle s.mgmt.pins.csLow }
    inputs := ⟨s.inputs.syncIn.released, s.inputs.commitIn.released⟩
    pending := s.pending }

end Sys2Proof.Machine
end

