-- ==== Sys2Proof/Machine/Capture.lean ====
section
/-! DEFINITION. The capture unit's own operations (chapter 8): a hit judged by its channel, records handed to the capture
queue, and channels rearmed. -/

namespace Sys2Proof.Machine

/-- A hit, as a port hands it to a channel (R137). -/
structure Hit where
  channel : ChannelId
  port : Port
  direction : Access
  word : WordIndex
  mask : LaneSet
  data : Lanes
  error : Bool
deriving DecidableEq, Repr

/-- A record is handed to the capture queue: stored at the tail with the lost counter's value while the queue holds fewer
than 32 records (R146), dropped otherwise (R147). -/
def State.handRecord (r : CaptureRecord) (s : State) : State :=
  if s.cap.queue.length < Config.captureDepth then
    (s.withCap { s.cap with queue := s.cap.queue ++ [⟨r, s.cap.lost⟩], lost := 0 }).refreshReady
  else
    (s.withCap { s.cap with lost := saturatingSucc s.cap.lost }).raise .captureLost

/-- The direction of a hit is one the channel takes (R138). -/
def Direction.admits (d : Direction) (a : Access) : Bool :=
  match d, a with
  | .both, _ => true
  | .read, .read => true
  | .write, .write => true
  | .read, .write => false
  | .write, .read => false

/-- The data of a hit matches in one lane: an unmasked lane always, a masked lane when it is in the hit's byte mask and
agrees with the match value wherever the mask byte has a one (R138). -/
def Channel.laneMatches (ch : Channel) (h : Hit) (i : Fin 8) : Bool :=
  decide (ch.matchMask[i] = 0) ||
    (h.mask.getLsbD i && decide (h.data[i] &&& ch.matchMask[i] = ch.matchValue[i] &&& ch.matchMask[i]))

/-- A hit qualifies by its direction and its data (R138). -/
def Channel.qualifies (ch : Channel) (h : Hit) : Bool :=
  ch.direction.admits h.direction && (List.finRange 8).all (ch.laneMatches h)

/-- The ACCESS record a channel produces from a hit (R144). -/
def Channel.accessRecord (ch : Channel) (h : Hit) (stamp : Stamp) : CaptureRecord :=
  .access h.channel stamp h.port h.direction h.word h.error
    (if ch.recordData then some (h.mask, Lanes.masked h.mask h.data) else none) ch.skipCount

/-- The channel after a qualifying hit that produces no record (R139, R140): one more skipped, and in ARMED one more on
the prescale count. -/
def Channel.skipped (ch : Channel) : Channel :=
  { ch with
    skipCount := saturatingSucc ch.skipCount
    prescaleCount := if ch.state = .armed then ch.prescaleCount + 1 else ch.prescaleCount }

/-- The channel after the hit that produces a record (R139). -/
def Channel.recorded (ch : Channel) : Channel :=
  { ch with
    skipCount := 0
    prescaleCount := 0
    produced := ch.produced + 1
    state := if ch.gate then .gated else .armed }

/-- A hit reaches its channel (R137 to R140): ignored in OFF; otherwise counted, and if it qualifies counted as
qualifying, then skipped (in GATED, or in ARMED while the prescale count has not reached prescale+1) or recorded. -/
def State.takeHit (h : Hit) (s : State) : State :=
  let ch := s.channel h.channel
  if ch.state = .off then s
  else
    let hit := { ch with hits := ch.hits + 1 }
    if !hit.qualifies h then s.withChannel h.channel hit
    else
      let qual := { hit with qualifying := hit.qualifying + 1 }
      if qual.state = .gated ∨ qual.prescaleCount.toNat < qual.prescale.toNat then s.withChannel h.channel qual.skipped
      else (s.withChannel h.channel qual.recorded).handRecord (qual.accessRecord h s.now)

/-- A GATED channel becomes ARMED with its prescale count at 0 and its skip count kept (R141, R142). -/
def Channel.rearmed (ch : Channel) : Channel :=
  if ch.state = .gated then { ch with state := .armed, prescaleCount := 0 } else ch

/-- The capture unit is told of a wrap (R142): GATED channels with rearm at wrap on become ARMED. -/
def State.rearmAtWrap (s : State) : State :=
  s.withCap { s.cap with channels := s.cap.channels.map fun ch => if ch.rearmAtWrap then ch.rearmed else ch }

/-- RESET_DATAPATH at the capture unit (R152): the queue emptied, the lost counter 0, every enabled channel ARMED with its
counts restarted, CAPTURE_READY re-evaluated. -/
def State.resetCapture (s : State) : State :=
  (s.withCap { s.cap with
    queue := []
    lost := 0
    channels := s.cap.channels.map fun ch =>
      if ch.state = .off then ch else { ch with state := .armed, prescaleCount := 0, skipCount := 0 } }).refreshReady

end Sys2Proof.Machine
end

