-- ==== Sys2Proof/Machine/Forwarding.lean ====
section
/-! DEFINITION. Lookups in the staging table and the selection of bytes for a read of a staged window (R25, chapter 4). -/

namespace Sys2Proof.Machine

/-- The live entries of one list of a group that have the word address, in list order (R25). -/
def State.lookup (list : List PoolIndex) (word : WordIndex) (s : State) : List Entry :=
  (list.filterMap fun i => s.entry i).filter fun e => decide (e.word = word)

/-- The byte of a lane from the youngest entry of a list that covers the lane: the one latest in list order (R70). -/
def youngestByte (entries : List Entry) (i : Fin 8) : Option Byte :=
  (entries.reverse.find? fun e => e.mask.getLsbD i).map fun e => e.data[i]

/-- The byte of a lane that staging entries supply in a read view, none when the lane comes from memory (R70). -/
def State.stagedByte (g : GroupId) (view : ReadView) (word : WordIndex) (s : State) (i : Fin 8) : Option Byte :=
  let draining := youngestByte (s.lookup (s.group g).drainList word) i
  match view with
  | .committed => draining
  | .pending => (youngestByte (s.lookup (s.group g).openList word) i).or draining

/-- A read is fully covered when every lane is taken from an entry (R72). -/
def State.fullyCovered (g : GroupId) (view : ReadView) (word : WordIndex) (s : State) : Bool :=
  (List.finRange 8).all fun i => (s.stagedByte g view word i).isSome

/-- The word of a forwarded read: staged bytes where the view may see them, memory's bytes elsewhere (R70, R73). -/
def State.forwardedWord (g : GroupId) (view : ReadView) (word : WordIndex) (memory : Lanes) (s : State) : Lanes :=
  Vector.ofFn fun i => (s.stagedByte g view word i).getD memory[i]

end Sys2Proof.Machine
end

