-- ==== Sys2Proof/Machine/Heads.lean ====
section
/-! DEFINITION. The upstream ports' own operations (chapters 5 and 6): classification at the head, what a request does on
becoming the head, how a head is answered, and how a port moves on. -/

namespace Sys2Proof.Machine

/-! ## The places of a queue -/

def Progress.isBehind : Progress → Bool
  | .behind => true
  | _ => false

def Progress.isHead : Progress → Bool
  | .head _ _ => true
  | _ => false

def Progress.isOnM : Progress → Bool
  | .onM _ => true
  | _ => false

/-- A request that is BEHIND or HEAD: not yet issued, placed or answered (R102, R112). -/
def Progress.isUnsettled (x : Progress) : Bool := x.isBehind || x.isHead

/-- The oldest request of a queue whose progress satisfies a test, given a new progress. -/
def setFirst (test : Progress → Bool) (new : Progress) : List QueuedRequest → List QueuedRequest
  | [] => []
  | r :: rest => if test r.progress then { r with progress := new } :: rest else r :: setFirst test new rest

/-- The oldest request of a port whose progress satisfies a test. -/
def State.firstRequest (p : Port) (test : Progress → Bool) (s : State) : Option QueuedRequest :=
  (s.port p).queue.find? fun r => test r.progress

/-- The oldest request of a port whose progress satisfies a test, given a new progress. -/
def State.progressFirst (p : Port) (test : Progress → Bool) (new : Progress) (s : State) : State :=
  s.withPort p { s.port p with queue := setFirst test new (s.port p).queue }

/-- The head of a port: the request in HEAD (R102). -/
def State.head (p : Port) (s : State) : Option QueuedRequest := s.firstRequest p Progress.isHead

/-! ## Classification -/

/-- No window: PASS without capture (R91). -/
def Classification.unwindowed : Classification := ⟨.pass, none, none⟩

/-- The window that governs a request of a port: the enabled window that contains the word and applies to the port
(R91). Under the rule of R88 there is at most one. -/
def State.governingWindow (p : Port) (word : WordIndex) (s : State) : Option WindowId :=
  (List.finRange 8).find? fun w => (s.window w).enabled && (s.window w).contains word && (s.window w).appliesTo p

/-- The classification a request receives at the head of its port (R91). -/
def State.classify (p : Port) (word : WordIndex) (s : State) : Classification :=
  match s.op with
  | .active =>
    match s.governingWindow p word with
    | some w =>
      { route := match (s.window w).cls with
          | .pass => .pass
          | .staged g v => .staged g v
        window := some w
        channel := (s.window w).channel }
    | none => Classification.unwindowed
  | .init => Classification.unwindowed
  | .bypass => Classification.unwindowed

/-! ## Hits -/

/-- The hit of a request on the channel of its classification, if it has one (R113). -/
def State.hitFor (p : Port) (r : BusRequest) (cls : Classification) (mask : LaneSet) (data : Lanes) (error : Bool)
    (s : State) : State :=
  match cls.channel with
  | some c => s.takeHit ⟨c, p, r.kind, r.word, mask, data, error⟩
  | none => s

/-! ## Writes in passage and errors -/

/-- A change of a window's count of writes in passage (R84). -/
def State.passage (w : Option WindowId) (f : Nat → Nat) (s : State) : State :=
  match w with
  | some i => s.withWindow i { s.window i with passage := f (s.window i).passage }
  | none => s

/-- One more answer of a reason on a port's counts (R111). -/
def PortCounts.withError (reason : ErrorReason) (c : PortCounts) : PortCounts :=
  match reason with
  | .rejectedFull => { c with errRejected := c.errRejected + 1 }
  | .holdTimeout => { c with errTimeout := c.errTimeout + 1 }
  | .downstreamError => { c with errDownstream := c.errDownstream + 1 }
  | .discardedByReset => { c with errDiscarded := c.errDiscarded + 1 }

/-- A port records the error it answers, whole, with the stamp of this moment, and counts it (R110, R111). -/
def State.recordError (p : Port) (reason : ErrorReason) (r : BusRequest) (s : State) : State :=
  let port := s.port p
  s.withPort p { port with
    lastError := some ⟨reason, r.kind, r.word, r.tag, s.now⟩
    counts := port.counts.withError reason }

/-! ## Answering the staged write at a head -/

/-- The staged write at a port's head is placed (R105): answered OKAY, counted as placed and, when it merged, as merged,
and out of its window's count of writes in passage. -/
def State.answerPlaced (p : Port) (cls : Classification) (merged : Bool) (s : State) : State :=
  ((s.progressFirst p Progress.isHead (.answered ⟨.okay, none⟩)).countPort p fun c =>
      { c with
        stagedPlaced := c.stagedPlaced + 1
        merged := if merged then c.merged + 1 else c.merged }).passage cls.window (· - 1)

/-- The staged write at a port's head is answered ERROR (R105, R108): recorded and counted, and out of its window's count
of writes in passage. -/
def State.answerRefused (p : Port) (cls : Classification) (r : BusRequest) (reason : ErrorReason) (s : State) : State :=
  ((s.progressFirst p Progress.isHead (.answered ⟨.error, none⟩)).recordError p reason r).passage cls.window (· - 1)

/-! ## Becoming the head and moving on -/

/-- The oldest BEHIND request of a port becomes the head and is classified (R102, R103): a pass request waits at the
arbiter; a staged write is in passage; a read of a staged window is answered at once when it is fully covered (R72) and
waits at the arbiter otherwise. A write's hit, and the hit of a read answered here, are taken now (R113). -/
def State.enterHead (p : Port) (r : BusRequest) (s : State) : State :=
  let cls := s.classify p r.word
  match r, cls.route with
  | .write _ mask data _, .pass =>
    (s.progressFirst p Progress.isBehind (.head cls .waiting)).hitFor p r cls mask data false
  | .write _ mask data _, .staged _ _ =>
    ((s.progressFirst p Progress.isBehind (.head cls (.passage false))).passage cls.window (· + 1)).hitFor
      p r cls mask data false
  | .read _ _, .pass => s.progressFirst p Progress.isBehind (.head cls .waiting)
  | .read word _, .staged g view =>
    if s.fullyCovered g view word then
      let data := s.forwardedWord g view word Lanes.zero
      ((s.progressFirst p Progress.isBehind (.answered ⟨.okay, some data⟩)).countPort p fun c =>
        { c with forwarded := c.forwarded + 1 }).hitFor p r cls (BitVec.allOnes 8) data false
    else s.progressFirst p Progress.isBehind (.head cls .waiting)

/-- A port with no HEAD request brings its oldest BEHIND request to the head, and goes on while the one it brings is
answered at once (R102). The bound is the number of requests it may bring. -/
def State.bringHeads (p : Port) : Nat → State → State
  | 0, s => s
  | n + 1, s =>
    match s.head p, s.firstRequest p Progress.isBehind with
    | none, some r => State.bringHeads p n (s.enterHead p r.request)
    | _, _ => s

/-- A port moves on at the happening that freed its head (R102, R103). -/
def State.moveOn (p : Port) (s : State) : State := s.bringHeads p (s.port p).queue.length

/-- A request is accepted into a port's queue (R101): appended at the tail as BEHIND, counted, and the head at once when
nothing stands before it in BEHIND or HEAD. -/
def State.acceptRequest (p : Port) (r : BusRequest) (s : State) : State :=
  let port := s.port p
  (s.withPort p { port with
    queue := port.queue ++ [⟨r, .behind⟩]
    counts := { port.counts with requests := port.counts.requests + 1 } }).moveOn p

end Sys2Proof.Machine
end

