-- ==== Sys2Proof/Machine/Staging.lean ====
section
/-! DEFINITION. The staging table's placement (01, 1.3 and 1.4): merge, allocate, refuse or hold, and the retries of held
writes. -/

namespace Sys2Proof.Machine

/-- The outcome of a placement (R7). -/
inductive Placement where
  | merged
  | allocated
  | rejected
  | heldBack
deriving DecidableEq, Repr

/-- The entry of a group's open list that has the word address, sought in MERGE mode only (R8, R10). -/
def State.mergeTarget (g : GroupId) (word : WordIndex) (s : State) : Option PoolIndex :=
  match (s.group g).mode with
  | .sequence => none
  | .merge => (s.group g).openList.find? fun i =>
      match s.entry i with
      | some e => decide (e.word = word)
      | none => false

/-- A write merged into an entry (R8): its lanes replaced, the mask joined, the count one more up to 255, the port among
the contributors; list place, index and state unchanged. -/
def Entry.mergeWrite (p : Port) (mask : LaneSet) (data : Lanes) (e : Entry) : Entry :=
  { e with
    data := Lanes.overlay mask data e.data
    mask := e.mask ||| mask
    count := saturatingSucc e.count
    contributors := e.contributors ||| p.asSet }

/-- The entry a write allocates (R2, R4). -/
def Entry.allocate (p : Port) (g : GroupId) (word : WordIndex) (mask : LaneSet) (data : Lanes) : Entry where
  word := word
  mask := mask
  data := Lanes.masked mask data
  group := g
  gen := .collecting
  state := .staged
  contributors := p.asSet
  count := 1

/-- Where an allocation goes: the lowest free entry, unless the pool is full or the open list of the group is at its entry
limit (R4, R13). -/
def State.allocationIndex (g : GroupId) (s : State) : Option PoolIndex :=
  if (s.group g).openList.length < (s.group g).entryLimit.toNat then s.lowestFree else none

/-- A placement at the staging table (R7 to R10, R13 to R15): the table after it, and its outcome. The hold record of a
first refusal and the answer are the callers'. -/
def State.place (p : Port) (g : GroupId) (word : WordIndex) (mask : LaneSet) (data : Lanes) (s : State) :
    State × Placement :=
  match s.mergeTarget g word with
  | some i =>
    ((s.withPool (updateEntries [i] (Entry.mergeWrite p mask data) s.pool)).countGroup g fun c =>
      { c with merged := c.merged + 1 }, .merged)
  | none =>
    match s.allocationIndex g with
    | some i =>
      let grp := s.group g
      ((s.withPool (s.pool.set i (some (Entry.allocate p g word mask data)))).withGroup g
        { grp with
          openList := grp.openList ++ [i]
          counts := { grp.counts with allocated := grp.counts.allocated + 1 } }, .allocated)
    | none =>
      match (s.group g).policy with
      | .reject => ((s.countGroup g fun c => { c with rejections := c.rejections + 1 }).raise .stageReject, .rejected)
      | .hold => (s, .heldBack)

/-- The hold record of a port removed. -/
def State.dropHold (p : Port) (s : State) : State := s.withHolds (s.holds.filter fun h => decide (h.port ≠ p))

/-- A held write placed afresh (R17); the port moves on (by the flag) when it was placed or refused under REJECT. -/
def State.retryHold (h : Hold) (s : State) : State × Bool :=
  match s.head h.port with
  | some ⟨.write word mask data tag, .head cls .held⟩ =>
    let r := s.place h.port h.group word mask data
    match r.2 with
    | .merged => ((r.1.dropHold h.port).answerPlaced h.port cls true, true)
    | .allocated => ((r.1.dropHold h.port).answerPlaced h.port cls false, true)
    | .rejected =>
      ((r.1.dropHold h.port).answerRefused h.port cls (.write word mask data tag) .rejectedFull, true)
    | .heldBack => (s, false)
  | _ => (s, false)

/-- One retry after another, in the order of the list, and the ports that move on. -/
def State.retryAll : List Hold → State → State × List Port
  | [], s => (s, [])
  | h :: rest, s =>
    let r := s.retryHold h
    let t := State.retryAll rest r.1
    (t.1, if r.2 then h.port :: t.2 else t.2)

/-- Several ports move on, one after another. -/
def State.moveOnAll : List Port → State → State
  | [], s => s
  | p :: rest, s => State.moveOnAll rest (s.moveOn p)

/-- A retry point (R16): the held writes it concerns are retried in the order of their first refusals, as one claim, and
then the ports whose heads were answered move on. -/
def State.retryHolds (concerned : Hold → Bool) (s : State) : State :=
  let r := State.retryAll (s.holds.filter concerned) s
  State.moveOnAll r.2 r.1

/-- The staged write at a port's head reaches the staging table (R7, R105): placed, refused, held, or answered
DISCARDED_BY_RESET when a RESET_DATAPATH was taken since its classification (R23). -/
def State.placeHead (p : Port) (s : State) : State :=
  match s.head p with
  | some ⟨.write word mask data tag, .head cls (.passage afterReset)⟩ =>
    match cls.route with
    | .pass => s
    | .staged g _ =>
      if afterReset then (s.answerRefused p cls (.write word mask data tag) .discardedByReset).moveOn p
      else
        let r := s.place p g word mask data
        match r.2 with
        | .merged => (r.1.answerPlaced p cls true).moveOn p
        | .allocated => (r.1.answerPlaced p cls false).moveOn p
        | .rejected => (r.1.answerRefused p cls (.write word mask data tag) .rejectedFull).moveOn p
        | .heldBack =>
          (s.progressFirst p Progress.isHead (.head cls .held)).withHolds
            (s.holds ++ [⟨p, g, s.tb.usClock, (s.group g).holdLimit⟩])
  | _ => s

end Sys2Proof.Machine
end

