-- ==== Sys2Proof/Machine/Commit.lean ====
section
/-! DEFINITION. The commit group controller's own operations (chapter 2): commit events taken, missed or refused, and the
slot instants that bring them. -/

namespace Sys2Proof.Machine

/-- The commit move at the staging table (R19): the open list becomes the draining list, its entries QUEUED under the
sequence number, and a new open list begins; with it the group's first-fault address becomes absent (R35). -/
def State.commitMove (g : GroupId) (sequence : BitVec 16) (s : State) : State :=
  let grp := s.group g
  (s.withPool (updateEntries grp.openList (fun e => { e with state := .queued, gen := .draining sequence }) s.pool)).withGroup g
    { grp with openList := [], drainList := grp.openList, firstFault := none }

/-- A new draining generation joins the tail of the drain queue, and COMMIT_BUSY is asserted (R35, R50, R51, R60). -/
def State.appendDrain (g : GroupId) (sequence : BitVec 16) (stamp : Stamp) (s : State) : State :=
  let first := s.drain.queue.isEmpty && s.drain.leftovers.isEmpty
  s.withDrain { s.drain with
    queue := s.drain.queue ++
      [{ group := g
         sequence := sequence
         stamp := stamp
         moment := s.tb.usClock
         budget := (s.group g).drainBudget
         phase := if first then .issuing else .waiting
         next := (s.group g).drainList.head?
         outstanding := 0
         drained := 0
         failed := 0
         late := false }]
    commitBusy := true }

/-- The COMMIT record of an empty commit, when log commits is on (R36). -/
def State.logEmptyCommit (g : GroupId) (sequence : BitVec 16) (stamp : Stamp) (s : State) : State :=
  if (s.group g).logCommits then s.handRecord (.commit g sequence stamp 0 0 false) else s

/-- The sequence, the count and the last-commit stamp of a taken commit (R35, steps 1 and 2). -/
def State.stampCommit (g : GroupId) (s : State) : State :=
  let grp := s.group g
  s.withGroup g { grp with
    sequence := grp.sequence + 1
    lastCommit := some s.now
    counts := { grp.counts with commitsTaken := grp.counts.commitsTaken + 1 } }

/-- A commit event taken by a group in IDLE or COLLECTING (R35, R36). -/
def State.takeCommit (g : GroupId) (s : State) : State :=
  let stamped := s.stampCommit g
  let sequence := (stamped.group g).sequence
  let committed :=
    if (s.group g).openList.isEmpty then stamped.logEmptyCommit g sequence s.now
    else (stamped.commitMove g sequence).appendDrain g sequence s.now
  committed.retryHolds fun h => decide (h.group = g)

/-- A slot instant or COMMIT_IN edge that reaches a draining group: a missed slot (R37). -/
def State.missSlot (g : GroupId) (s : State) : State :=
  (s.countGroup g fun c => { c with missedSlots := c.missedSlots + 1 }).raise (.slotMissed g)

/-- A slot instant or a COMMIT_IN edge at a group it concerns (R35, R37). -/
def State.slotAt (g : GroupId) (s : State) : State :=
  if (s.group g).isDraining then s.missSlot g else s.takeCommit g

/-- One happening for several groups, each taken whole before the next (R34). -/
def State.slotsAt : List GroupId → State → State
  | [], s => s
  | g :: rest, s => State.slotsAt rest (s.slotAt g)

/-- The groups a happening concerns, in ascending order: enabled, of the given trigger source, while the bridge is ACTIVE
(R34). -/
def State.concernedGroups (source : TriggerSource) (also : Group → Bool) (s : State) : List GroupId :=
  if s.op = .active then
    (List.finRange 4).filter fun g =>
      (s.group g).enabled && decide ((s.group g).trigger = source) && also (s.group g)
  else []

/-- A slot instant for the value the counter stands at (R124): a commit event for each enabled TIMER group whose slot
offset in force equals it. -/
def State.slotInstant (s : State) : State :=
  s.slotsAt (s.concernedGroups .timer fun grp => decide (grp.slotOffset = s.tb.counter))

/-- A COMMIT_IN edge (R34): a commit event for each enabled EXTERNAL group. -/
def State.commitInEdge (s : State) : State := s.slotsAt (s.concernedGroups .external fun _ => true)

/-- The groups of a COMMIT_NOW (R38): the state after it, the groups that took the commit event, and the groups that were
BUSY. A group that is OFF appears in neither. -/
def State.commitNow : List GroupId → State → State × List GroupId × List GroupId
  | [], s => (s, [], [])
  | g :: rest, s =>
    if !(s.group g).enabled then State.commitNow rest s
    else if (s.group g).isDraining then
      let r := State.commitNow rest s
      (r.1, r.2.1, g :: r.2.2)
    else
      let r := State.commitNow rest (s.takeCommit g)
      (r.1, g :: r.2.1, r.2.2)

/-- ABORT_GROUP at the staging table (R22, R43): the open list freed and counted discarded, and, when an entry was freed,
every held write retried. -/
def State.abortOpen (g : GroupId) (s : State) : State :=
  let grp := s.group g
  let aborted := (s.withPool (freeEntries grp.openList s.pool)).withGroup g { grp with
    openList := []
    counts := { grp.counts with discarded := grp.counts.discarded + BitVec.ofNat 32 grp.openList.length } }
  if grp.openList.isEmpty then s else aborted.retryHolds fun _ => true

end Sys2Proof.Machine
end

