-- ==== Sys2Proof/Machine/DrainEngine.lean ====
section
/-! DEFINITION. The drain engine's own operations (chapter 3): issuing, acknowledgements, retirement, late generations,
and RESET_DATAPATH during a drain. -/

namespace Sys2Proof.Machine

/-! ## Issuing -/

/-- The M write of an entry: its address, its mask, its data in the masked lanes with zero elsewhere (R52). -/
def Entry.memoryWrite (tag : Tag) (e : Entry) : BusRequest := .write e.word e.mask (Lanes.masked e.mask e.data) tag

/-- The first QUEUED entry of a list (R50: next to issue). -/
def State.firstQueued (list : List PoolIndex) (s : State) : Option PoolIndex := list.find? (s.entryIs .queued)

/-- The record of the head generation after it issued its next entry (R51, R52). -/
def Drain.issued (next : Option PoolIndex) (d : Drain) : Drain :=
  { d with
    next := next
    outstanding := d.outstanding + 1
    phase := if next.isSome then .issuing else .closing }

/-- The entry the drain engine would issue: next to issue of a head generation that is ISSUING (R51, R52). -/
def State.drainCandidate (s : State) : Option (Drain × PoolIndex × Entry) :=
  match s.drain.queue with
  | [] => none
  | d :: _ =>
    match d.phase, d.next with
    | .issuing, some i => (s.entry i).map fun e => (d, i, e)
    | _, _ => none

/-- The drain engine issues its next entry (R20, R52): the entry becomes WRITING and next-to-issue moves on. -/
def State.issueDrain (d : Drain) (i : PoolIndex) (s : State) : State :=
  let t := s.withPool (updateEntries [i] (fun e => { e with state := .writing }) s.pool)
  t.withDrain { t.drain with
    queue := d.issued (t.firstQueued (t.group d.group).drainList) :: t.drain.queue.tail }

/-! ## Late generations -/

/-- A generation's budget has run out at this count of the µs clock (R57, R119): never for a budget of 0. -/
def State.budgetExpired (d : Drain) (s : State) : Bool :=
  decide (d.budget ≠ 0 ∧ d.budget.toNat ≤ s.microsecondsSince d.moment)

/-- A generation of a group whose budget has run out and that is not yet late (R58). -/
def State.becomesLate (g : GroupId) (s : State) (d : Drain) : Bool :=
  decide (d.group = g) && !d.late && s.budgetExpired d

/-- The arbiter is escalated while a generation in the drain queue is late (R59). -/
def State.refreshEscalated (s : State) : State :=
  s.withArb { s.arb with escalated := s.drain.queue.any (·.late) }

/-- COMMIT_BUSY stays asserted while the drain queue holds a generation or a leftover write is outstanding (R60). -/
def State.refreshBusy (s : State) : State :=
  s.withDrain { s.drain with commitBusy := !(s.drain.queue.isEmpty && s.drain.leftovers.isEmpty) }

/-- A budget expiry at a group's generation (R58): late, counted, DRAIN_LATE set, escalation begun. -/
def State.expireBudget (g : GroupId) (s : State) : State :=
  if s.drain.queue.any (s.becomesLate g) then
    (((s.withDrain { s.drain with
        queue := s.drain.queue.map fun d => if s.becomesLate g d then { d with late := true } else d }).countGroup g
      fun c => { c with lateDrains := c.lateDrains + 1 }).raise (.drainLate g)).refreshEscalated
  else s

/-! ## Acknowledgements and retirement -/

/-- An acknowledged entry is freed, leaves its draining list and is counted drained or failed for its group (R21); an
ERROR sets the first-fault address if it is absent, and DRAIN_FAULT (R54, R61). -/
def State.settleEntry (g : GroupId) (i : PoolIndex) (status : Status) (s : State) : State :=
  let grp := s.group g
  if i ∈ grp.drainList then
    let word := (s.entry i).map (·.word)
    let freed := s.withPool (freeEntries [i] s.pool)
    let list := grp.drainList.erase i
    match status with
    | .okay => freed.withGroup g { grp with
        drainList := list
        counts := { grp.counts with drained := grp.counts.drained + 1 } }
    | .error => (freed.withGroup g { grp with
        drainList := list
        firstFault := grp.firstFault.or word
        counts := { grp.counts with failed := grp.counts.failed + 1 } }).raise (.drainFault g)
  else s

/-- The record of the head generation after an acknowledgement (R54). -/
def Drain.acknowledged (status : Status) (d : Drain) : Drain :=
  match status with
  | .okay => { d with outstanding := d.outstanding - 1, drained := d.drained + 1 }
  | .error => { d with outstanding := d.outstanding - 1, failed := d.failed + 1 }

/-- The head generation, WAITING only for leftover writes, becomes ISSUING once none is outstanding (R51, R55, R61). -/
def State.wakeHead (s : State) : State :=
  match s.drain.queue with
  | d :: rest =>
    if d.phase = .waiting ∧ s.drain.leftovers = [] then
      s.withDrain { s.drain with queue := { d with phase := .issuing } :: rest }
    else s
  | [] => s

/-- Retirement of the head generation (R55, R56): it leaves the queue, its COMMIT record is produced when log commits is
on, its claim on escalation ends, the next generation becomes the head, and COMMIT_BUSY is released on an empty queue. -/
def State.retire (d : Drain) (s : State) : State :=
  let left := (s.withDrain { s.drain with queue := s.drain.queue.tail }).wakeHead.refreshEscalated.refreshBusy
  if (s.group d.group).logCommits then
    left.handRecord (.commit d.group d.sequence d.stamp d.drained d.failed d.late)
  else left

/-- The acknowledgement of a write of the head generation at the drain engine, with retirement when it leaves the
generation CLOSING with no write outstanding (R54, R55). -/
def State.ackGeneration (status : Status) (s : State) : State :=
  match s.drain.queue with
  | d :: rest =>
    let acked := d.acknowledged status
    let t := s.withDrain { s.drain with queue := acked :: rest }
    if acked.phase = .closing ∧ acked.outstanding = 0 then t.retire acked else t
  | [] => s

/-- The acknowledgement of a leftover write at the drain engine (R61). -/
def State.ackLeftover (s : State) : State :=
  (s.withDrain { s.drain with leftovers := s.drain.leftovers.tail }).wakeHead.refreshBusy

/-- The acknowledgement of a drain write (R54, R61): the entry is settled, the drain engine counts it for its generation or
as a leftover write, and the freed entry is a retry point for every held write (R16). -/
def State.ackDrain (g : GroupId) (i : PoolIndex) (status : Status) (s : State) : State :=
  let settled := s.settleEntry g i status
  let acked := if s.drain.leftovers.isEmpty then settled.ackGeneration status else settled.ackLeftover
  acked.retryHolds fun _ => true

/-! ## RESET_DATAPATH -/

/-- A group at RESET_DATAPATH (R23, R48): the open list discarded, the draining list left with its WRITING entries, and
what is gone counted discarded. -/
def State.discardGroup (s : State) (grp : Group) : Group :=
  let kept := grp.drainList.filter (s.entryIs .writing)
  { grp with
    openList := []
    drainList := kept
    counts := { grp.counts with
      discarded := grp.counts.discarded +
        BitVec.ofNat 32 (grp.openList.length + (grp.drainList.length - kept.length)) } }

/-- The number of entries a RESET_DATAPATH discards over all groups (R177). -/
def State.discardedByReset (s : State) : Nat :=
  ((List.finRange 64).filter fun i => s.entryIs .staged i || s.entryIs .queued i).length

/-- RESET_DATAPATH at the staging table (R23): every STAGED and QUEUED entry freed, every group's lists cut down. -/
def State.discardEntries (s : State) : State :=
  (s.withGroups (s.groups.map s.discardGroup)).withPool
    (s.pool.map fun e => match e with
      | some x => if x.state = .writing then some x else none
      | none => none)

/-- The writes left over and outstanding on port M, in issue order (R61). -/
def State.outstandingDrains (s : State) : List (GroupId × PoolIndex) :=
  s.arb.outstanding.filterMap fun o => match o.owner with
    | .drain g i => some (g, i)
    | .port _ _ _ => none

/-- RESET_DATAPATH at the drain engine (R61): the queue emptied, the outstanding drain writes left over, escalation ended,
COMMIT_BUSY asserted only while a leftover write is outstanding. -/
def State.resetDrain (s : State) : State :=
  (s.withDrain { s.drain with queue := [], leftovers := s.outstandingDrains }).refreshEscalated.refreshBusy

end Sys2Proof.Machine
end

