-- ==== Sys2Proof/Machine/Arbiter.lean ====
section
/-! DEFINITION. The memory port arbiter's own operations (03, 3.8): the requesters that wait, the choice of a grant, and
the routing of memory's responses. -/

namespace Sys2Proof.Machine

/-! ## Waiting requesters and the choice -/

/-- A progress that waits at the arbiter as its port's requester (R63, R103). -/
def Progress.isWaiting : Progress → Bool
  | .head _ .waiting => true
  | _ => false

/-- A requester waits: a port while its head waits at the arbiter, the drain engine while the head generation is ISSUING
(R63). -/
def State.waits (s : State) : Requester → Bool
  | .port p => ((s.firstRequest p Progress.isWaiting)).isSome
  | .drain => s.drainCandidate.isSome

/-- The requester that follows in the cycle A, B, drain engine, A (R64). -/
def Requester.successor : Requester → Requester
  | .port .a => .port .b
  | .port .b => .drain
  | .drain => .port .a

/-- The cycle of the three requesters, from the pointer on (R64). -/
def Requester.cycleFrom (r : Requester) : List Requester := [r, r.successor, r.successor.successor]

/-- The requester is a port. -/
def Requester.isPort : Requester → Bool
  | .port _ => true
  | .drain => false

/-- The first waiting requester met going round from the pointer (R64). -/
def State.firstWaiting (s : State) : Option Requester := s.arb.pointer.cycleFrom.find? s.waits

/-- The first waiting port met going round from the pointer, passing over the drain engine (R64). -/
def State.firstWaitingPort (s : State) : Option Requester :=
  s.arb.pointer.cycleFrom.find? fun r => r.isPort && s.waits r

/-- The drain engine, if it waits. -/
def State.drainIfWaiting (s : State) : Option Requester := if s.waits .drain then some .drain else none

/-- The choice among the waiting requesters under the policy, when escalation does not decide it (R64). -/
def State.policyChoice (s : State) : Option Requester :=
  match s.arb.policy with
  | .rotate => s.firstWaiting
  | .portsFirst => s.firstWaitingPort.or s.drainIfWaiting
  | .drainFirst => s.drainIfWaiting.or s.firstWaitingPort

/-- The choice of a grant (R59, R64): while escalated the drain engine whenever it waits, else as the policy says. -/
def State.grantChoice (s : State) : Option Requester :=
  if s.arb.escalated && s.waits .drain then some .drain else s.policyChoice

/-! ## Grants -/

/-- A grant at the arbiter: the item joins the outstanding list with a tag of the arbiter's own, the pointer moves past the
requester granted, and the count of grants goes on (R64, R65). DESIGN CHOICE: the tag is the count as it stands before this
grant is counted, so the first tag after RESET_N is 0 (notes/assumptions/31.md); and the request of a port is sent with all
eight lanes of data as its initiator presented them, those outside its mask included (notes/assumptions/33.md). -/
def State.recordGrant (r : Requester) (owner : Owner) (request : BusRequest) (s : State) : State :=
  s.withArb { s.arb with
    outstanding := s.arb.outstanding ++ [⟨owner, request.withTag s.arb.grants⟩]
    pointer := r.successor
    grants := s.arb.grants + 1 }

/-- One more request of a kind sent to memory, on a port's counts (R104, R111). -/
def PortCounts.withPass (kind : Access) (c : PortCounts) : PortCounts :=
  match kind with
  | .read => { c with passReads := c.passReads + 1 }
  | .write => { c with passWrites := c.passWrites + 1 }

/-- A grant to a port (R104, R106): its head is sent to memory and moves to ON_M, and the port moves on. DESIGN CHOICE: the
data of a pass write is sent as presented in every lane (notes/assumptions/33.md). -/
def State.grantPort (p : Port) (s : State) : State :=
  match s.firstRequest p Progress.isWaiting with
  | some ⟨r, .head cls .waiting⟩ =>
    ((((s.progressFirst p Progress.isWaiting (.onM cls)).countPort p fun c => c.withPass r.kind).recordGrant (.port p)
      (.port p r.tag r.kind) r)).moveOn p
  | _ => s

/-- A grant to the drain engine (R52): it issues its next entry. -/
def State.grantDrain (s : State) : State :=
  match s.drainCandidate with
  | some (d, i, e) => (s.issueDrain d i).recordGrant .drain (.drain d.group i) (e.memoryWrite 0)
  | none => s

/-- One grant, given whenever port M has fewer than four requests outstanding and a requester waits (R63, R64). -/
def State.grant (s : State) : State :=
  if s.arb.outstanding.length < Config.memorySlots then
    match s.grantChoice with
    | some (.port p) => s.grantPort p
    | some .drain => s.grantDrain
    | none => s
  else s

/-! ## Responses -/

/-- The answer of a READ sent to memory (R73, R77, R104): memory's word, merged with the live staging entries for a read
of a staged window, and zero for an ERROR. -/
def State.readAnswer (cls : Classification) (word : WordIndex) (status : Status) (memory : Lanes) (s : State) : Lanes :=
  match status, cls.route with
  | .error, _ => Lanes.zero
  | .okay, .pass => memory
  | .okay, .staged g view => s.forwardedWord g view word memory

/-- A memory ERROR answered to an initiator (R109): recorded, counted, PASS_FAULT set. -/
def State.downstreamError (p : Port) (r : BusRequest) (s : State) : State :=
  (s.recordError p .downstreamError r).raise .passFault

/-- A memory response routed to a port (R65, R104, R106): the oldest request ON_M is answered; an ERROR is recorded; a READ
with a capture channel gives its hit with the word answered (R113). -/
def State.routeToPort (p : Port) (status : Status) (memory : Lanes) (s : State) : State :=
  match s.firstRequest p Progress.isOnM with
  | some ⟨r, .onM cls⟩ =>
    let data := s.readAnswer cls r.word status memory
    let answer : Answer := ⟨status, match r with
      | .read _ _ => some data
      | .write _ _ _ _ => none⟩
    let answered := s.progressFirst p Progress.isOnM (.answered answer)
    let judged := match status with
      | .okay => answered
      | .error => answered.downstreamError p r
    match r with
    | .read _ _ => judged.hitFor p r cls (BitVec.allOnes 8) data (decide (status = .error))
    | .write _ _ _ _ => judged
  | _ => s

/-- A response on port M (R65): matched to the oldest outstanding item, which it removes, and routed to its owner; with no
owner it is discarded. -/
def State.memoryResponse (status : Status) (memory : Lanes) (s : State) : State :=
  match s.arb.outstanding with
  | [] => s
  | item :: rest =>
    let t := s.withArb { s.arb with outstanding := rest }
    match item.owner with
    | .port p _ _ => t.routeToPort p status memory
    | .drain g i => t.ackDrain g i status

end Sys2Proof.Machine
end

