-- ==== Sys2Proof/Machine/Timing.lean ====
section
/-! DEFINITION. The cycle timebase's own operations (chapter 7): counting, wraps and the pending settings they apply, the
slot range, the µs clock, the expiries it times, and one period of REFCLK. -/

namespace Sys2Proof.Machine

/-! ## The slot range -/

/-- A group's SLOT_OUT_OF_RANGE indication as an apply evaluates it (R127). -/
def Group.judgedRange (period : BitVec 16) (g : Group) : Group :=
  { g with outOfRange := decide (period.toNat ≤ g.slotOffset.toNat) }

/-- An apply (R127): the slot range of every group is evaluated, and SLOT_RANGE is set when a group is out of range. -/
def State.evaluateSlotRange (s : State) : State :=
  let judged := s.withGroups (s.groups.map (Group.judgedRange s.tb.period))
  if judged.groups.any (·.outOfRange) then judged.raise .slotRange else judged

/-! ## Wraps -/

/-- A value waits for the next wrap: a period, a prescale, or a slot offset of a group (R123). -/
def State.anyPending (s : State) : Bool :=
  s.tb.pendingPeriod.isSome || s.tb.pendingPrescale.isSome || s.groups.any (·.pendingOffset.isSome)

/-- The pending period, prescale and slot offsets become the values in force (R123, step 2). -/
def State.applyPending (s : State) : State :=
  (s.withTb { s.tb with
    period := s.tb.pendingPeriod.getD s.tb.period
    pendingPeriod := none
    prescale := s.tb.pendingPrescale.getD s.tb.prescale
    pendingPrescale := none }).withGroups
    (s.groups.map fun g => { g with slotOffset := g.pendingOffset.getD g.slotOffset, pendingOffset := none })

/-- A wrap (R123): counter 0 and one more cycle; the pending values applied, an apply if there was one; the capture unit
told; the slot instant for 0. -/
def State.wrap (s : State) : State :=
  let entered := s.withTb { s.tb with counter := 0, cycle := s.tb.cycle + 1 }
  let applied := if s.anyPending then entered.applyPending.evaluateSlotRange else entered
  applied.rearmAtWrap.slotInstant

/-- The counter stands below period-1 (R117, R128). -/
def State.belowLast (s : State) : Bool := decide (s.tb.counter.toNat + 1 < s.tb.period.toNat)

/-- The end of a tick below period-1 while RUNNING (R117, R124): the counter enters its next value. DESIGN CHOICE: as a row
of its own it is taken wherever tickDivider stands, and leaves it there (notes/assumptions/7.md). -/
def State.counterStep (s : State) : State :=
  if s.tb.running && s.belowLast then (s.withTb { s.tb with counter := s.tb.counter + 1 }).slotInstant else s

/-- The end of the tick of period-1 while RUNNING (R123). DESIGN CHOICE: as a row of its own it is taken wherever tickDivider
stands, and leaves it there (notes/assumptions/7.md). -/
def State.naturalWrap (s : State) : State := if s.tb.running && !s.belowLast then s.wrap else s

/-- A SYNC_IN edge (R128): taken while sync enable is on and the timebase is RUNNING, a forced wrap that restarts the tick
divider, and counts a truncated cycle when the counter stood below period-1. -/
def State.syncEdge (s : State) : State :=
  if s.tb.syncEnable && s.tb.running then
    let restarted := s.withTb { s.tb with tickDivider := 0 }
    if s.belowLast then
      ((restarted.withTb { restarted.tb with truncated := s.tb.truncated + 1 }).raise .truncated).wrap
    else restarted.wrap
  else s

/-! ## The µs clock and the expiries it times -/

/-- One more microsecond (R118); the microsecond that begins has the length the reference frequency now gives. -/
def State.usAdvance (s : State) : State :=
  s.withTb { s.tb with usClock := s.tb.usClock + 1, usLength := s.tb.refFreq }

/-- The clearing of the staging RAM is complete when the µs clock reads 20 in INIT (R94, R181). -/
def State.initComplete (s : State) : State :=
  if s.op = .init ∧ Config.initMicroseconds ≤ s.tb.usClock.toNat then s.withOp .bypass else s

/-- A hold's limit has run out at this count of the µs clock; a limit of 0 is none (R15, R18, R119). -/
def State.holdExpired (s : State) (h : Hold) : Bool :=
  decide (h.limit ≠ 0 ∧ h.limit.toNat ≤ s.microsecondsSince h.since)

/-- The expiry of a hold (R18): the hold record removed, the write answered ERROR HOLD_TIMEOUT, counted for the port and
the group, the cause set, and the port moves on. -/
def State.expireHold (p : Port) (s : State) : State :=
  match s.holds.find? fun h => decide (h.port = p) with
  | some h =>
    if s.holdExpired h then
      match s.head p with
      | some ⟨r, .head cls .held⟩ =>
        ((((s.dropHold p).answerRefused p cls r .holdTimeout).countGroup h.group fun c =>
          { c with holdTimeouts := c.holdTimeouts + 1 }).raise .holdTimeout).moveOn p
      | _ => s
    else s
  | none => s

/-- Every expiry that is due: the holds of ports A and B, then the budgets of groups 0 to 3. -/
def State.dueExpiries (s : State) : State :=
  (List.finRange 4).foldl (fun t g => t.expireBudget g) ((s.expireHold .a).expireHold .b)

/-! ## One period of REFCLK -/

/-- The present microsecond ends with this REFCLK period (R118). -/
def State.microsecondEnds (s : State) : Bool := decide (s.tb.usLength.toNat ≤ s.tb.usDivider.toNat + 1)

/-- The present tick ends with this REFCLK period (R117). -/
def State.tickEnds (s : State) : Bool := s.tb.running && decide (s.tb.prescale.toNat ≤ s.tb.tickDivider.toNat)

/-- Both dividers count one REFCLK period, and SYNC_IN and COMMIT_IN are sampled (R117, R118, R182). DESIGN CHOICE:
every period samples both lines, and what it sees is taken in it (notes/assumptions/32.md). -/
def State.countPeriod (s : State) : State :=
  (s.withTb { s.tb with
    usDivider := if s.microsecondEnds then 0 else s.tb.usDivider + 1
    tickDivider := if s.tickEnds then 0 else if s.tb.running then s.tb.tickDivider + 1 else s.tb.tickDivider }).withInputs
    s.inputs.sampled

/-- What a condition brings about. -/
def State.ifDue (due : Bool) (f : State → State) (s : State) : State := if due then f s else s

/-- One period of REFCLK with no command waiting. What falls due in it is taken one after another: the end of a microsecond
with what the µs clock brings, the end of a tick, the edges that the sample takes. DESIGN CHOICE: this is the block's step
on an empty queue, and this is the order (notes/assumptions/2.md). -/
def State.refclkPeriod (s : State) : State :=
  s.awake fun t =>
    (((t.countPeriod.ifDue t.microsecondEnds fun u => u.usAdvance.initComplete.dueExpiries).ifDue t.tickEnds fun u =>
      if t.belowLast then u.counterStep else u.naturalWrap).ifDue t.inputs.syncIn.rises State.syncEdge).ifDue
      t.inputs.commitIn.rises State.commitInEdge

end Sys2Proof.Machine
end

