-- ==== Sys2Proof/Machine/Commands.lean ====
section
/-! DEFINITION. The meanings of the commands that act on groups, channels, the timebase, the bridge and the events:
COMMIT_NOW, ABORT_GROUP, REARM, START_TIMEBASE, STOP_TIMEBASE, ENABLE_BRIDGE, DISABLE_BRIDGE, RESET_DATAPATH,
CLEAR_CAUSES and SET_ENABLES. -/

namespace Sys2Proof.Machine

/-! ## Groups and channels: the argument checks come before the INIT check (R168) -/

/-- COMMIT_NOW (R38, R176). -/
def execCommitNow (groups : Byte) (s : State) : Host.Outcome State Fault Refusal :=
  .next (s.hearing fun s => match argFour groups with
    | none => s.refuse .badArgument 2
    | some set =>
      if set = 0 then s.refuse .badArgument 2
      else if s.op = .active then
        let r := State.commitNow (members set) s
        r.1.reply .accepted (setOf r.2.1 ++ setOf r.2.2)
      else s.refuse .badState 2)

/-- ABORT_GROUP (R43, R176). -/
def execAbortGroup (group : Byte) (s : State) : Host.Outcome State Fault Refusal :=
  .next (s.hearing fun s => match argBelow 4 group with
    | none => s.refuse .badArgument 1
    | some g =>
      if s.op = .init ∨ !(s.group g).enabled then s.refuse .badState 1
      else (s.abortOpen g).reply .accepted (byteNat (s.group g).openList.length))

/-- REARM (R141, R176): the named channels that were GATED and have become ARMED. -/
def execRearm (channels : Byte) (s : State) : Host.Outcome State Fault Refusal :=
  .next (s.hearing fun s => match argFour channels with
    | none => s.refuse .badArgument 1
    | some set =>
      if set = 0 then s.refuse .badArgument 1
      else if s.op = .init then s.refuse .badState 1
      else
        (s.withCap { s.cap with
          channels := Vector.ofFn fun c => if set.getLsbD c then (s.channel c).rearmed else s.channel c }).reply .accepted
          (setOf ((members set).filter fun c => decide ((s.channel c).state = .gated))))

/-! ## The timebase -/

/-- START_TIMEBASE from STOPPED (R121): counter 0, the tick divider restarted, RUNNING, and the slot instant for 0. -/
def State.startTimebase (s : State) : State :=
  (s.withTb { s.tb with counter := 0, tickDivider := 0, running := true }).slotInstant

/-- START_TIMEBASE (R121). -/
def execStartTimebase (s : State) : Host.Outcome State Fault Refusal :=
  .next (s.hearing (State.unlessInit 0 fun s =>
    if s.tb.running then s.refuse .badState 0 else s.startTimebase.accept))

/-- STOP_TIMEBASE (R122). -/
def execStopTimebase (s : State) : Host.Outcome State Fault Refusal :=
  .next (s.hearing (State.unlessInit 0 fun s => (s.withTb { s.tb with running := false }).accept))

/-! ## The bridge -/

/-- ENABLE_BRIDGE (R95). -/
def execEnableBridge (s : State) : Host.Outcome State Fault Refusal :=
  .next (s.hearing (State.unlessInit 0 fun s => (s.withOp .active).accept))

/-- The conditions that make DISABLE_BRIDGE BUSY (R96, R177): an entry STAGED or QUEUED, a held write, a window with a
write in passage. -/
def State.busyConditions (s : State) : List Bool :=
  [(List.finRange 64).any fun i => s.entryIs .staged i || s.entryIs .queued i,
   !s.holds.isEmpty,
   (List.finRange 8).any fun w => decide ((s.window w).passage ≠ 0)]

/-- The set of conditions as one byte (R177). -/
def conditionByte (conditions : List Bool) : List Byte := setByte 3 fun i => conditions.getD i.val false

/-- DISABLE_BRIDGE (R96). -/
def execDisableBridge (s : State) : Host.Outcome State Fault Refusal :=
  .next (s.hearing (State.unlessInit 1 fun s =>
    if s.op = .active ∧ s.busyConditions.any id then s.reply .busy (conditionByte s.busyConditions)
    else (s.withOp .bypass).reply .accepted [0]))

/-- A held write at RESET_DATAPATH (R23): its hold record removed, the write answered ERROR DISCARDED_BY_RESET. -/
def State.discardHeld (p : Port) (s : State) : State :=
  match s.head p with
  | some ⟨r, .head cls .held⟩ => (s.dropHold p).answerRefused p cls r .discardedByReset
  | _ => s.dropHold p

/-- The held writes of several ports, one after another. -/
def State.discardHolds : List Port → State → State
  | [], s => s
  | p :: rest, s => State.discardHolds rest (s.discardHeld p)

/-- A staged write in passage is marked: its placement will reach the staging table after the command (R23). -/
def QueuedRequest.markPassage (r : QueuedRequest) : QueuedRequest :=
  match r.progress with
  | .head cls (.passage _) => { r with progress := .head cls (.passage true) }
  | _ => r

/-- The staged writes in passage of both ports marked. -/
def State.markPassages (s : State) : State :=
  (s.withPortA { s.portA with queue := s.portA.queue.map QueuedRequest.markPassage }).withPortB
    { s.portB with queue := s.portB.queue.map QueuedRequest.markPassage }

/-- RESET_DATAPATH at every block it reaches, at the same moment (R23, R48, R61, R97, R114, R152); the ports whose held
writes it answered then move on, in BYPASS. -/
def State.resetDatapath (s : State) : State :=
  let ports := s.holds.map (·.port)
  State.moveOnAll ports
    (State.discardHolds ports ((s.withOp .bypass).discardEntries.markPassages.resetDrain.resetCapture))

/-- The discard summary of RESET_DATAPATH (R177). -/
def State.discardSummary (s : State) : List Byte :=
  byteNat s.discardedByReset ++ byteNat s.holds.length ++ byteNat s.outstandingDrains.length

/-- RESET_DATAPATH (R97). -/
def execResetDatapath (s : State) : Host.Outcome State Fault Refusal :=
  .next (s.hearing (State.unlessInit 3 fun s => s.resetDatapath.reply .accepted s.discardSummary))

/-! ## Events -/

/-- CLEAR_CAUSES (R159, R178): the found set, the cause set after the command, IRQ_N after the command. -/
def execClearCauses (causes : BitVec 24) (s : State) : Host.Outcome State Fault Refusal :=
  .next (s.hearing (State.unlessInit 7 fun s =>
    match argCauses causes with
    | none => s.refuse .badArgument 7
    | some named =>
      let e := s.ev.clear named
      (s.withEv e).reply .accepted
        (bytesLE 3 (s.ev.causes &&& (named &&& stickyCauses)) ++ bytesLE 3 e.causes ++ byteBool e.irq)))

/-- SET_ENABLES (R157, R178): the enable set now in force, the cause set, IRQ_N after the command. -/
def execSetEnables (causes : BitVec 24) (s : State) : Host.Outcome State Fault Refusal :=
  .next (s.hearing (State.unlessInit 7 fun s =>
    match argCauses causes with
    | none => s.refuse .badArgument 7
    | some set =>
      let e := s.ev.enable set
      (s.withEv e).reply .accepted (bytesLE 3 e.enables ++ bytesLE 3 e.causes ++ byteBool e.irq)))

end Sys2Proof.Machine
end

