-- ==== Sys2Proof/WellFormed.lean ====
section
/-! DEFINITION. When a command term spells a happening its row can be: the three rows whose fields the manual bounds
beyond their types. -/

namespace Sys2Proof

/-- A request's byte mask names 1 to 8 lanes (R100). -/
def BusRequest.wellFormed : BusRequest → Bool
  | .read _ _ => true
  | .write _ mask _ _ => decide (mask ≠ 0#8)

/-- A command term its row admits: a write carries at least one lane (R100), UNKNOWN_COMMAND carries a byte that names
no command (R166), and PUT_SETTING_UNKNOWN_ITEM an item number that names no item (R172). -/
def Instr.wellFormed : Instr → Bool
  | .requestAccept _ r => r.wellFormed
  | .unknownCommand command => !namesCommand command
  | .putSettingUnknownItem item _ => (settingValueBytes item).isNone
  | .resetNAssert => true
  | .resetNRelease => true
  | .initComplete => true
  | .usClockAdvance => true
  | .counterStep => true
  | .naturalWrap => true
  | .syncInEdge => true
  | .commitInEdge => true
  | .holdLimitExpiry _ => true
  | .drainBudgetExpiry _ => true
  | .stagedWritePlacement _ => true
  | .grant => true
  | .memoryResponse _ _ _ => true
  | .responseTaken _ => true
  | .partialFrame _ => true
  | .getSetting _ _ => true
  | .putSettingReferenceFrequency _ _ => true
  | .putSettingTimebasePrescale _ _ => true
  | .putSettingPeriod _ _ => true
  | .putSettingSyncEnable _ _ => true
  | .putSettingGrantPolicy _ _ => true
  | .putSettingCaptureThreshold _ _ => true
  | .putSettingGroupEnabled _ _ => true
  | .putSettingTriggerSource _ _ => true
  | .putSettingSlotOffset _ _ => true
  | .putSettingMode _ _ => true
  | .putSettingFullPolicy _ _ => true
  | .putSettingEntryLimit _ _ => true
  | .putSettingHoldLimit _ _ => true
  | .putSettingDrainBudget _ _ => true
  | .putSettingLogCommits _ _ => true
  | .putSettingChannelEnabled _ _ => true
  | .putSettingDirection _ _ => true
  | .putSettingChannelPrescale _ _ => true
  | .putSettingGate _ _ => true
  | .putSettingRearmAtWrap _ _ => true
  | .putSettingMatch _ _ _ => true
  | .putSettingRecordData _ _ => true
  | .putWindow _ _ _ _ _ _ _ _ _ => true
  | .enableWindow _ => true
  | .disableWindow _ => true
  | .readWindow _ => true
  | .readStatus _ => true
  | .readEntry _ => true
  | .popCapture => true
  | .commitNow _ => true
  | .abortGroup _ => true
  | .rearm _ => true
  | .startTimebase => true
  | .stopTimebase => true
  | .enableBridge => true
  | .disableBridge => true
  | .resetDatapath => true
  | .clearCauses _ => true
  | .setEnables _ => true
  | .readIdentity => true

end Sys2Proof
end

