-- ==== Sys2Proof/Machine/DataPath.lean ====
section
/-! DEFINITION. The meanings of the data-path rows: REQUEST_ACCEPT, STAGED_WRITE_PLACEMENT, GRANT, MEMORY_RESPONSE and
RESPONSE_TAKEN. -/

namespace Sys2Proof.Machine

/-- An initiator presents a request (R101): accepted while fewer than 4 are outstanding and none waits on the bus before
it; otherwise it waits on the bus. DESIGN CHOICE: notes/assumptions/8.md. -/
def State.presentRequest (p : Port) (r : BusRequest) (s : State) : State :=
  if (s.port p).waiting.isEmpty && decide ((s.port p).queue.length < Config.portDepth) then s.acceptRequest p r
  else s.withPort p { s.port p with waiting := (s.port p).waiting ++ [r] }

/-- A request that waits on the bus is accepted once fewer than 4 are outstanding (R101). -/
def State.acceptWaiting (p : Port) (s : State) : State :=
  match (s.port p).waiting with
  | [] => s
  | r :: rest =>
    if (s.port p).queue.length < Config.portDepth then
      (s.withPort p { s.port p with waiting := rest }).acceptRequest p r
    else s

/-- The response a port delivers: the answer of its oldest request, once formed (R107). -/
def State.delivered (p : Port) (s : State) : Option (Tag × Answer) :=
  match (s.port p).queue with
  | ⟨r, .answered a⟩ :: _ => some (r.tag, a)
  | _ => none

/-- The delivered response is taken (R107): its request leaves the queue, and a request that waits on the bus is accepted
at this moment (R101). -/
def State.takeResponse (p : Port) (s : State) : State :=
  match s.delivered p with
  | some _ => (s.withPort p { s.port p with queue := (s.port p).queue.tail }).acceptWaiting p
  | none => s

/-- REQUEST_ACCEPT (R101). -/
def execRequestAccept (p : Port) (r : BusRequest) (s : State) : Host.Outcome State Fault Refusal :=
  if r.wellFormed then .next (s.awake (State.presentRequest p r)) else .refused (.illFormed "REQUEST_ACCEPT")

/-- STAGED_WRITE_PLACEMENT (R7, R105). -/
def execStagedWritePlacement (p : Port) (s : State) : Host.Outcome State Fault Refusal :=
  .next (s.awake (State.placeHead p))

/-- GRANT (R64). -/
def execGrant (s : State) : Host.Outcome State Fault Refusal := .next (s.awake State.grant)

/-- MEMORY_RESPONSE (R65): routing is by order, not by the tag the response carries. -/
def execMemoryResponse (status : Status) (data : Lanes) (_tag : Tag) (s : State) : Host.Outcome State Fault Refusal :=
  .next (s.awake (State.memoryResponse status data))

/-- RESPONSE_TAKEN (R107). -/
def execResponseTaken (p : Port) (s : State) : Host.Outcome State Fault Refusal := .next (s.awake (State.takeResponse p))

end Sys2Proof.Machine
end

