-- ==== Sys2Proof/Machine/Frames.lean ====
section
/-! DEFINITION. The meanings of the frames that carry no command to a block: PARTIAL_FRAME, UNKNOWN_COMMAND and
READ_IDENTITY. -/

namespace Sys2Proof.Machine

/-- A partial frame (R167): discarded, no result formed, the frame-error count one more up to 65535; a frame without a
rising edge of SCK has no effect. -/
def State.discardFrame (sckEdges : Nat) (s : State) : State :=
  if sckEdges = 0 then s
  else s.withMgmt { s.mgmt with frameErrors := saturatingSucc s.mgmt.frameErrors, result := none }

/-- PARTIAL_FRAME (R167). -/
def execPartialFrame (sckEdges : Nat) (s : State) : Host.Outcome State Fault Refusal :=
  .next (s.hearing (State.discardFrame sckEdges))

/-- UNKNOWN_COMMAND (R166, R168): answered UNKNOWN_COMMAND with no result data and no effect. -/
def execUnknownCommand (command : Byte) (s : State) : Host.Outcome State Fault Refusal :=
  if namesCommand command then .refused (.illFormed "UNKNOWN_COMMAND")
  else .next (s.hearing (State.reply .unknownCommand []))

/-- The five bytes of READ_IDENTITY (R179). -/
def identityBytes : List Byte := bytesLE 2 Config.vendorCode ++ bytesLE 2 Config.partCode ++ [Config.revision]

/-- READ_IDENTITY (R179): accepted in every operating state. -/
def execReadIdentity (s : State) : Host.Outcome State Fault Refusal :=
  .next (s.hearing (State.reply .accepted identityBytes))

end Sys2Proof.Machine
end

