-- ==== Sys2Proof/Machine/Settings.lean ====
section
/-! DEFINITION. The meanings of GET_SETTING and of the PUT_SETTING rows (10.4), global items first, then group items, then
channel items. -/

namespace Sys2Proof.Machine

/-! ## How a setting command is judged (R168, R171, R172) -/

/-- A PUT_SETTING of a global item: the INIT check, then the index, then the range of the value, then the owner. -/
def State.putGlobal {α : Type} (index : Byte) (arg : Option α) (owner : α → State → State) (s : State) : State :=
  s.unlessInit 0 fun s =>
    if index ≠ 0 then s.refuse .badArgument 0
    else match arg with
      | none => s.refuse .badArgument 0
      | some v => owner v s

/-- A PUT_SETTING of a group or channel item, whose index is 0-3. -/
def State.putIndexed {α : Type} (index : Byte) (arg : Option α) (owner : Fin 4 → α → State → State) (s : State) : State :=
  s.unlessInit 0 fun s =>
    match argBelow 4 index, arg with
    | some n, some v => owner n v s
    | _, _ => s.refuse .badArgument 0

/-- An owner that accepts the value in every group or channel state. -/
def State.always {α : Type} (change : α → State → State) (v : α) (s : State) : State := (change v s).accept

/-- A group setting that is accepted at any time (R30). -/
def State.setGroup {α : Type} (change : α → Group → Group) (g : GroupId) (v : α) (s : State) : State :=
  (s.withGroup g (change v (s.group g))).accept

/-- A group setting that is accepted while the group is IDLE or OFF, and answered BUSY otherwise (R29). -/
def State.setQuietGroup {α : Type} (change : α → Group → Group) (g : GroupId) (v : α) (s : State) : State :=
  if (s.group g).isQuiet then s.setGroup change g v else s.refuse .busy 0

/-- A channel setting: accepted whatever the channel state (R136). -/
def State.setChannel {α : Type} (change : α → Channel → Channel) (c : ChannelId) (v : α) (s : State) : State :=
  (s.withChannel c (change v (s.channel c))).accept

/-! ## Global items -/

/-- PUT_SETTING of the reference frequency (R118): it sets the length of every microsecond that begins after it. -/
def execPutSettingReferenceFrequency (index value : Byte) (s : State) : Host.Outcome State Fault Refusal :=
  .next (s.hearing (State.putGlobal index (argRange 10 200 value)
    (State.always fun v s => s.withTb { s.tb with refFreq := v })))

/-- The prescale written (R126): pending while RUNNING, in force at once while STOPPED. -/
def Timebase.writePrescale (v : Byte) (t : Timebase) : Timebase :=
  if t.running then { t with pendingPrescale := some v } else { t with prescale := v, pendingPrescale := none }

/-- PUT_SETTING of the timebase prescale (R126). -/
def execPutSettingTimebasePrescale (index value : Byte) (s : State) : Host.Outcome State Fault Refusal :=
  .next (s.hearing (State.putGlobal index (some value) (State.always fun v s => s.withTb (s.tb.writePrescale v))))

/-- The period written (R125): pending while RUNNING; in force at once while STOPPED, which is an apply (R127). -/
def State.writePeriod (v : BitVec 16) (s : State) : State :=
  if s.tb.running then s.withTb { s.tb with pendingPeriod := some v }
  else (s.withTb { s.tb with period := v, pendingPeriod := none }).evaluateSlotRange

/-- PUT_SETTING of the period (R125). -/
def execPutSettingPeriod (index : Byte) (value : BitVec 16) (s : State) : Host.Outcome State Fault Refusal :=
  .next (s.hearing (State.putGlobal index (argPeriod value) (State.always State.writePeriod)))

/-- PUT_SETTING of sync enable (R128). -/
def execPutSettingSyncEnable (index value : Byte) (s : State) : Host.Outcome State Fault Refusal :=
  .next (s.hearing (State.putGlobal index (argSwitch value)
    (State.always fun v s => s.withTb { s.tb with syncEnable := v })))

/-- PUT_SETTING of the grant policy (R64): the pointer is kept. -/
def execPutSettingGrantPolicy (index value : Byte) (s : State) : Host.Outcome State Fault Refusal :=
  .next (s.hearing (State.putGlobal index (argGrantPolicy value)
    (State.always fun v s => s.withArb { s.arb with policy := v })))

/-- PUT_SETTING of the capture threshold (R149): in force at once, and CAPTURE_READY re-evaluated. -/
def execPutSettingCaptureThreshold (index value : Byte) (s : State) : Host.Outcome State Fault Refusal :=
  .next (s.hearing (State.putGlobal index (argRange 1 32 value)
    (State.always fun v s => (s.withCap { s.cap with threshold := v }).refreshReady)))

/-! ## Group items -/

/-- A group turned on or off (R28). -/
def State.writeGroupEnabled (g : GroupId) (on : Bool) (s : State) : State :=
  if on then s.setGroup (fun _ grp => { grp with enabled := true }) g ()
  else if !(s.group g).enabled then s.accept
  else if s.windows.any (·.names g) then s.refuse .badState 0
  else s.setGroup (fun _ grp => { grp with enabled := false }) g ()

/-- PUT_SETTING of a group's enabled setting (R28). -/
def execPutSettingGroupEnabled (index value : Byte) (s : State) : Host.Outcome State Fault Refusal :=
  .next (s.hearing (State.putIndexed index (argSwitch value) State.writeGroupEnabled))

/-- PUT_SETTING of a group's trigger source (R30). -/
def execPutSettingTriggerSource (index value : Byte) (s : State) : Host.Outcome State Fault Refusal :=
  .next (s.hearing (State.putIndexed index (argTrigger value) (State.setGroup fun v g => { g with trigger := v })))

/-- A slot offset written (R31): pending while RUNNING; in force at once while STOPPED, which is an apply (R127). -/
def State.writeSlotOffset (g : GroupId) (v : BitVec 16) (s : State) : State :=
  if s.tb.running then s.withGroup g { s.group g with pendingOffset := some v }
  else (s.withGroup g { s.group g with slotOffset := v, pendingOffset := none }).evaluateSlotRange

/-- PUT_SETTING of a group's slot offset (R31). -/
def execPutSettingSlotOffset (index : Byte) (value : BitVec 16) (s : State) : Host.Outcome State Fault Refusal :=
  .next (s.hearing (State.putIndexed index (some value) fun g => State.always (State.writeSlotOffset g)))

/-- PUT_SETTING of a group's mode (R29). -/
def execPutSettingMode (index value : Byte) (s : State) : Host.Outcome State Fault Refusal :=
  .next (s.hearing (State.putIndexed index (argMode value) (State.setQuietGroup fun v g => { g with mode := v })))

/-- PUT_SETTING of a group's full policy (R29). -/
def execPutSettingFullPolicy (index value : Byte) (s : State) : Host.Outcome State Fault Refusal :=
  .next (s.hearing (State.putIndexed index (argPolicy value) (State.setQuietGroup fun v g => { g with policy := v })))

/-- PUT_SETTING of a group's entry limit (R29). -/
def execPutSettingEntryLimit (index value : Byte) (s : State) : Host.Outcome State Fault Refusal :=
  .next (s.hearing (State.putIndexed index (argRange 1 64 value)
    (State.setQuietGroup fun v g => { g with entryLimit := v })))

/-- PUT_SETTING of a group's hold limit (R30). -/
def execPutSettingHoldLimit (index : Byte) (value : BitVec 16) (s : State) : Host.Outcome State Fault Refusal :=
  .next (s.hearing (State.putIndexed index (argMicroseconds value) (State.setGroup fun v g => { g with holdLimit := v })))

/-- PUT_SETTING of a group's drain budget (R30). -/
def execPutSettingDrainBudget (index : Byte) (value : BitVec 16) (s : State) : Host.Outcome State Fault Refusal :=
  .next (s.hearing (State.putIndexed index (argMicroseconds value)
    (State.setGroup fun v g => { g with drainBudget := v })))

/-- PUT_SETTING of a group's log commits setting (R30). -/
def execPutSettingLogCommits (index value : Byte) (s : State) : Host.Outcome State Fault Refusal :=
  .next (s.hearing (State.putIndexed index (argSwitch value) (State.setGroup fun v g => { g with logCommits := v })))

/-! ## Channel items -/

/-- A channel turned on (from OFF: ARMED, its prescale and skip counts at 0), turned off (OFF at once), or written with its
present value, which changes nothing (R135). -/
def Channel.writeEnabled (on : Bool) (ch : Channel) : Channel :=
  match on, ch.state with
  | true, .off => { ch with state := .armed, prescaleCount := 0, skipCount := 0 }
  | true, .armed => ch
  | true, .gated => ch
  | false, _ => { ch with state := .off }

/-- PUT_SETTING of a channel's enabled setting (R135). -/
def execPutSettingChannelEnabled (index value : Byte) (s : State) : Host.Outcome State Fault Refusal :=
  .next (s.hearing (State.putIndexed index (argSwitch value) (State.setChannel Channel.writeEnabled)))

/-- PUT_SETTING of a channel's direction (R136). -/
def execPutSettingDirection (index value : Byte) (s : State) : Host.Outcome State Fault Refusal :=
  .next (s.hearing (State.putIndexed index (argDirection value)
    (State.setChannel fun v ch => { ch with direction := v })))

/-- PUT_SETTING of a channel's prescale (R136): the prescale count restarts, even for the present value. -/
def execPutSettingChannelPrescale (index value : Byte) (s : State) : Host.Outcome State Fault Refusal :=
  .next (s.hearing (State.putIndexed index (some value)
    (State.setChannel fun v ch => { ch with prescale := v, prescaleCount := 0 })))

/-- A channel's gate written (R136): turned off, a GATED channel becomes ARMED at once with its prescale count at 0. -/
def Channel.writeGate (on : Bool) (ch : Channel) : Channel :=
  let set := { ch with gate := on }
  if on then set else set.rearmed

/-- PUT_SETTING of a channel's gate (R136). -/
def execPutSettingGate (index value : Byte) (s : State) : Host.Outcome State Fault Refusal :=
  .next (s.hearing (State.putIndexed index (argSwitch value) (State.setChannel Channel.writeGate)))

/-- PUT_SETTING of a channel's rearm at wrap setting (R136). -/
def execPutSettingRearmAtWrap (index value : Byte) (s : State) : Host.Outcome State Fault Refusal :=
  .next (s.hearing (State.putIndexed index (argSwitch value)
    (State.setChannel fun v ch => { ch with rearmAtWrap := v })))

/-- PUT_SETTING of a channel's match setting (R136): match value and match mask are written together. -/
def execPutSettingMatch (index : Byte) (value mask : Lanes) (s : State) : Host.Outcome State Fault Refusal :=
  .next (s.hearing (State.putIndexed index (some (value, mask))
    (State.setChannel fun v ch => { ch with matchValue := v.1, matchMask := v.2 })))

/-- PUT_SETTING of a channel's record data setting (R136). -/
def execPutSettingRecordData (index value : Byte) (s : State) : Host.Outcome State Fault Refusal :=
  .next (s.hearing (State.putIndexed index (argSwitch value)
    (State.setChannel fun v ch => { ch with recordData := v })))

/-- PUT_SETTING of an item number that names no item (R172): BAD_STATE in INIT, BAD_ARGUMENT otherwise, with no effect. -/
def execPutSettingUnknownItem (item _index : Byte) (s : State) : Host.Outcome State Fault Refusal :=
  if (settingValueBytes item).isSome then .refused (.illFormed "PUT_SETTING_UNKNOWN_ITEM")
  else .next (s.hearing (State.unlessInit 0 (State.refuse .badArgument 0)))

/-! ## GET_SETTING -/

/-- The bytes of a global item's value in force (10.4, R171). -/
def State.globalValue (item : Byte) (s : State) : Option (List Byte) :=
  match item.toNat with
  | 1 => some [s.tb.refFreq]
  | 2 => some [s.tb.prescale]
  | 3 => some (bytesLE 2 s.tb.period)
  | 4 => some (byteBool s.tb.syncEnable)
  | 5 => some [s.arb.policy.code]
  | 6 => some [s.cap.threshold]
  | _ => none

/-- The bytes of a group item's value in force (10.4, R171). -/
def Group.itemValue (item : Byte) (g : Group) : Option (List Byte) :=
  match item.toNat with
  | 16 => some (byteBool g.enabled)
  | 17 => some [g.trigger.code]
  | 18 => some (bytesLE 2 g.slotOffset)
  | 19 => some [g.mode.code]
  | 20 => some [g.policy.code]
  | 21 => some [g.entryLimit]
  | 22 => some (bytesLE 2 g.holdLimit)
  | 23 => some (bytesLE 2 g.drainBudget)
  | 24 => some (byteBool g.logCommits)
  | _ => none

/-- A channel's enabled setting: on exactly while the channel is not OFF (R134). -/
def Channel.enabled (ch : Channel) : Bool := decide (ch.state ≠ .off)

/-- The bytes of a channel item's value in force (10.4, R171). -/
def Channel.itemValue (item : Byte) (ch : Channel) : Option (List Byte) :=
  match item.toNat with
  | 32 => some (byteBool ch.enabled)
  | 33 => some [ch.direction.code]
  | 34 => some [ch.prescale]
  | 35 => some (byteBool ch.gate)
  | 36 => some (byteBool ch.rearmAtWrap)
  | 37 => some (ch.matchValue.toList ++ ch.matchMask.toList)
  | 38 => some (byteBool ch.recordData)
  | _ => none

/-- The bytes of a setting's value in force; none when the item number names no item or the index is outside the item's
range (R171). -/
def State.settingValue (item index : Byte) (s : State) : Option (List Byte) :=
  match s.globalValue item with
  | some v => if index = 0 then some v else none
  | none =>
    match argBelow 4 index with
    | some n => ((s.group n).itemValue item).or ((s.channel n).itemValue item)
    | none => none

/-- GET_SETTING (R171): a refusal carries as many zero bytes as the item has value bytes. -/
def execGetSetting (item index : Byte) (s : State) : Host.Outcome State Fault Refusal :=
  .next (s.hearing (State.unlessInit ((settingValueBytes item).getD 0) fun s =>
    match s.settingValue item index with
    | some v => s.reply .accepted v
    | none => s.refuse .badArgument ((settingValueBytes item).getD 0)))

end Sys2Proof.Machine
end

