-- ==== Sys2Proof/Machine/WindowRows.lean ====
section
/-! DEFINITION. The meanings of the window commands (05, 5.2; R174): PUT_WINDOW, ENABLE_WINDOW, DISABLE_WINDOW and
READ_WINDOW. -/

namespace Sys2Proof.Machine

/-- The fields of PUT_WINDOW, when every argument check of R86 and R174 is met. -/
def windowFields (base limit : BitVec 40) (portSet cls group view capturePresent captureChannel : Byte) :
    Option (Address × Address × PortSet × WindowClass × Option ChannelId) :=
  match argPage base, argPage limit, argPorts portSet, argClass cls group view, argChannel capturePresent captureChannel with
  | some b, some l, some ps, some c, some ch => if b.toNat ≤ l.toNat then some (b, l, ps, c, ch) else none
  | _, _, _, _, _ => none

/-- PUT_WINDOW (R86): all the fields of a disabled window replaced at once; an enabled window is answered BAD_STATE. -/
def execPutWindow (window : Byte) (base limit : BitVec 40)
    (portSet cls group view capturePresent captureChannel : Byte) (s : State) : Host.Outcome State Fault Refusal :=
  .next (s.hearing (State.unlessInit 0 fun s =>
    match argBelow 8 window, windowFields base limit portSet cls group view capturePresent captureChannel with
    | some w, some (b, l, ps, c, ch) =>
      if (s.window w).enabled then s.refuse .badState 0
      else (s.withWindow w { s.window w with base := b, limit := l, ports := ps, cls := c, channel := ch }).accept
    | _, _ => s.refuse .badArgument 0))

/-- The lowest-numbered other enabled window that shares a port with a window and overlaps it (R88). -/
def State.conflictingWindow (w : WindowId) (s : State) : Option WindowId :=
  (List.finRange 8).find? fun v =>
    decide (v ≠ w) && (s.window v).enabled && (s.window v).sharesPort (s.window w) && (s.window v).overlaps (s.window w)

/-- The window is STAGED and its group is not enabled (R88). -/
def State.groupMissing (w : WindowId) (s : State) : Bool :=
  match (s.window w).cls with
  | .staged g _ => !(s.group g).enabled
  | .pass => false

/-- The result data of ENABLE_WINDOW: a presence byte and a window number (R174). -/
def conflictBytes (w : Option WindowId) : List Byte := optionally 1 (w.map fun v => byteNat v.val)

/-- ENABLE_WINDOW (R88). -/
def execEnableWindow (window : Byte) (s : State) : Host.Outcome State Fault Refusal :=
  .next (s.hearing (State.unlessInit 2 fun s =>
    match argBelow 8 window with
    | none => s.refuse .badArgument 2
    | some w =>
      if (s.window w).enabled then s.reply .accepted (conflictBytes none)
      else match s.conflictingWindow w with
        | some v => s.reply .badArgument (conflictBytes (some v))
        | none =>
          if s.groupMissing w then s.refuse .badState 2
          else (s.withWindow w { s.window w with enabled := true }).reply .accepted (conflictBytes none)))

/-- A STAGED window still has work (R89): its group has a live entry in its range, or it has a write in passage. -/
def State.windowBusy (w : WindowId) (s : State) : Bool :=
  match (s.window w).cls with
  | .pass => false
  | .staged g _ =>
    decide ((s.window w).passage ≠ 0) ||
      (List.finRange 64).any fun i => match s.entry i with
        | some e => decide (e.group = g) && (s.window w).contains e.word
        | none => false

/-- DISABLE_WINDOW (R89). -/
def execDisableWindow (window : Byte) (s : State) : Host.Outcome State Fault Refusal :=
  .next (s.hearing (State.unlessInit 0 fun s =>
    match argBelow 8 window with
    | none => s.refuse .badArgument 0
    | some w =>
      if !(s.window w).enabled then s.accept
      else if s.windowBusy w then s.refuse .busy 0
      else (s.withWindow w { s.window w with enabled := false }).accept))

/-- The class of a window, PASS 0 and STAGED 1 (R169). -/
def WindowClass.code : WindowClass → Byte
  | .pass => 0
  | .staged _ _ => 1

/-- The group of a STAGED window. -/
def WindowClass.group : WindowClass → Option GroupId
  | .pass => none
  | .staged g _ => some g

/-- The read view of a STAGED window. -/
def WindowClass.view : WindowClass → Option ReadView
  | .pass => none
  | .staged _ v => some v

/-- The twenty bytes of READ_WINDOW (R87, R174). -/
def Window.bytes (w : Window) : List Byte :=
  byteBool w.enabled ++ bytesLE 5 w.base ++ bytesLE 5 w.limit ++ bytesLE 1 w.ports ++ [w.cls.code] ++
    optionally 1 (w.cls.group.map fun g => byteNat g.val) ++ optionally 1 (w.cls.view.map fun v => [v.code]) ++
    optionally 1 (w.channel.map fun c => byteNat c.val) ++ byteNat w.passage

/-- READ_WINDOW (R87). -/
def execReadWindow (window : Byte) (s : State) : Host.Outcome State Fault Refusal :=
  .next (s.hearing (State.unlessInit 20 fun s =>
    match argBelow 8 window with
    | none => s.refuse .badArgument 20
    | some w => s.reply .accepted (s.window w).bytes))

end Sys2Proof.Machine
end

