-- ==== Sys2Proof/Machine/Inspection.lean ====
section
/-! DEFINITION. The meanings of the inspection commands: READ_STATUS with the report of each block (R173), READ_ENTRY (R26)
and POP_CAPTURE (R148). -/

namespace Sys2Proof.Machine

/-! ## The reports, item by item in the order of their status tables (R173) -/

/-- The window table items (R99). -/
def State.windowItems (s : State) : List Byte :=
  [s.op.code] ++ setByte 8 (fun w => (s.window w).enabled) ++
    setByte 8 (fun w => (s.window w).enabled && decide ((s.window w).cls ≠ .pass)) ++
    byteNat (((List.finRange 8).map fun w => (s.window w).passage).sum)

/-- The µs remaining before a generation's budget expires, absent when the budget is 0, has expired, or the generation is
late (R67). -/
def State.budgetRemaining (d : Drain) (s : State) : Option Nat :=
  if d.budget = 0 ∨ d.late ∨ s.budgetExpired d then none else some (d.budget.toNat - s.microsecondsSince d.moment)

/-- A generation of the drain queue (R67). -/
def State.drainItem (s : State) (d : Drain) : List Byte :=
  byteNat d.group.val ++ bytesLE 2 d.sequence ++ [d.phase.code] ++ byteNat (s.group d.group).drainList.length ++
    byteNat d.outstanding ++ byteBool d.late ++
    optionally 2 ((s.budgetRemaining d).map fun n => bytesLE 2 (BitVec.ofNat 16 n))

/-- COMMIT_BUSY as R169 numbers the values R67 lists: asserted 0, released 1. DEDUCED: notes/assumptions/16.md. -/
def commitBusyCode (asserted : Bool) : Byte := if asserted then 0 else 1

/-- The drain engine and arbiter items (R67). DESIGN CHOICE: of the item outstanding on port M one byte stands, which is both
its number and the count byte of the owners' list (notes/assumptions/34.md). -/
def State.drainItems (s : State) : List Byte :=
  countedList (s.drain.queue.map s.drainItem) ++ byteNat s.drain.leftovers.length ++ [commitBusyCode s.drain.commitBusy] ++
    byteBool s.arb.escalated ++ countedList (s.arb.outstanding.map fun o => [o.owner.code]) ++ [s.arb.pointer.code] ++
    [s.arb.policy.code]

/-- The bridge report (R173): window table, drain engine and arbiter, frame-error count. -/
def State.bridgeReport (s : State) : List Byte := s.windowItems ++ s.drainItems ++ bytesLE 2 s.mgmt.frameErrors

/-- A request of a port's queue (R116). -/
def QueuedRequest.bytes (r : QueuedRequest) : List Byte :=
  [accessCode r.request.kind] ++ bytesLE 1 r.request.tag ++ bytesWord r.request.word ++ [r.progress.code]

/-- The code of a classification: PASS 0, STAGED 1, none 2 (R116, R169). DESIGN CHOICE: a head classified PASS in INIT or
BYPASS, where no window is found, is coded none like one without a window in ACTIVE (notes/assumptions/17.md). -/
def Classification.code (c : Classification) : Byte :=
  match c.window, c.route with
  | none, _ => 2
  | some _, .pass => 0
  | some _, .staged _ _ => 1

/-- The head item of a port (R116). -/
def State.headItem (p : Port) (s : State) : List Byte :=
  optionally 4 (match s.head p with
    | some ⟨_, .head cls place⟩ =>
      some ([cls.code] ++ optionally 1 (cls.window.map fun w => byteNat w.val) ++ [place.code])
    | _ => none)

/-- The hold item of a port (R116): its group, the µs held so far, and the µs remaining, absent when the recorded limit is
0. -/
def State.holdItem (p : Port) (s : State) : List Byte :=
  optionally 8 ((s.holds.find? fun h => decide (h.port = p)).map fun h =>
    byteNat h.group.val ++ bytesLE 4 (s.tb.usClock - h.since) ++
      optionally 2 (if h.limit = 0 then none
        else some (bytesLE 2 (BitVec.ofNat 16 (h.limit.toNat - s.microsecondsSince h.since)))))

/-- A last-error record (R110, R116). -/
def ErrorRecord.bytes (e : ErrorRecord) : List Byte :=
  [e.reason.code, accessCode e.kind] ++ bytesWord e.word ++ bytesLE 1 e.tag ++ bytesStamp e.stamp

/-- The ten counts of a port in the order of R111. -/
def PortCounts.bytes (c : PortCounts) : List Byte :=
  ([c.requests, c.passReads, c.passWrites, c.stagedPlaced, c.merged, c.forwarded, c.errRejected, c.errTimeout,
    c.errDownstream, c.errDiscarded].map (bytesLE 4)).flatten

/-- The report of a port (R116). -/
def State.portReport (p : Port) (s : State) : List Byte :=
  byteNat (s.port p).queue.length ++ countedList ((s.port p).queue.map QueuedRequest.bytes) ++ s.headItem p ++
    s.holdItem p ++ optionally 15 ((s.port p).lastError.map ErrorRecord.bytes) ++ (s.port p).counts.bytes

/-- The ten counts of a group in the order of R46. -/
def GroupCounts.bytes (c : GroupCounts) : List Byte :=
  ([c.allocated, c.merged, c.drained, c.failed, c.discarded, c.rejections, c.holdTimeouts, c.missedSlots, c.lateDrains,
    c.commitsTaken].map (bytesLE 4)).flatten

/-- The sequence of a group's draining generation, shown by the entries of its draining list (R5, R40). -/
def State.drainingSequence (g : GroupId) (s : State) : Option (BitVec 16) :=
  match (s.group g).drainList with
  | [] => none
  | i :: _ => match s.entry i with
    | some e => match e.gen with
      | .draining n => some n
      | .collecting => none
    | none => none

/-- The report of a group (R45). -/
def State.groupReport (g : GroupId) (s : State) : List Byte :=
  let grp := s.group g
  [grp.state.code] ++ bytesLE 2 grp.sequence ++ optionally 2 ((s.drainingSequence g).map (bytesLE 2)) ++
    byteNat grp.openList.length ++ byteNat grp.drainList.length ++ optionally 7 (grp.lastCommit.map bytesStamp) ++
    optionally 5 (grp.firstFault.map bytesWord) ++ bytesLE 2 grp.slotOffset ++
    optionally 2 (grp.pendingOffset.map (bytesLE 2)) ++ byteBool grp.outOfRange ++
    [grp.trigger.code, grp.mode.code, grp.policy.code, grp.entryLimit] ++ bytesLE 2 grp.holdLimit ++
    bytesLE 2 grp.drainBudget ++ byteBool grp.logCommits ++ grp.counts.bytes

/-- The report of the timebase (R132). -/
def State.timebaseReport (s : State) : List Byte :=
  byteBool s.tb.running ++ bytesLE 2 s.tb.counter ++ bytesLE 4 s.tb.cycle ++ bytesLE 2 s.tb.period ++
    optionally 2 (s.tb.pendingPeriod.map (bytesLE 2)) ++ [s.tb.prescale] ++
    optionally 1 (s.tb.pendingPrescale.map fun v => [v]) ++ byteBool s.tb.syncEnable ++ [s.tb.refFreq] ++
    bytesLE 4 s.tb.truncated ++ bytesLE 4 s.tb.usClock

/-- The items of a capture channel (R151). -/
def Channel.bytes (ch : Channel) : List Byte :=
  [ch.state.code, ch.prescaleCount] ++ bytesLE 2 ch.skipCount ++ bytesLE 4 ch.hits ++ bytesLE 4 ch.qualifying ++
    bytesLE 4 ch.produced ++ byteBool ch.enabled ++ [ch.direction.code, ch.prescale] ++ byteBool ch.gate ++
    byteBool ch.rearmAtWrap ++ ch.matchValue.toList ++ ch.matchMask.toList ++ byteBool ch.recordData

/-- The kind of a capture record, ACCESS 1 and COMMIT 2 (R169). -/
def CaptureRecord.kindCode : CaptureRecord → Byte
  | .access _ _ _ _ _ _ _ _ => 1
  | .commit _ _ _ _ _ _ => 2

/-- The report of the capture unit (R151). -/
def State.captureReport (s : State) : List Byte :=
  byteNat s.cap.queue.length ++ [s.cap.threshold, s.cap.lost] ++
    optionally 1 (s.cap.queue.head?.map fun r => [r.record.kindCode]) ++
    ((List.finRange 4).map fun c => (s.channel c).bytes).flatten

/-- The report of the event unit (R163, R173). -/
def State.eventReport (s : State) : List Byte :=
  bytesLE 3 s.ev.causes ++ bytesLE 3 s.ev.enables ++ bytesLE 3 s.ev.pendingSet ++ byteBool s.ev.irq

/-- The report of a block by the number READ_STATUS names it with (R173). -/
def State.report (block : Byte) (s : State) : Option (List Byte) :=
  match block.toNat with
  | 0 => some s.bridgeReport
  | 1 => some (s.portReport .a)
  | 2 => some (s.portReport .b)
  | 3 => some (s.groupReport 0)
  | 4 => some (s.groupReport 1)
  | 5 => some (s.groupReport 2)
  | 6 => some (s.groupReport 3)
  | 7 => some s.timebaseReport
  | 8 => some s.captureReport
  | 9 => some s.eventReport
  | _ => none

/-- READ_STATUS (R173): accepted in every operating state; a block above 9 is answered BAD_ARGUMENT, without result data. -/
def execReadStatus (block : Byte) (s : State) : Host.Outcome State Fault Refusal :=
  .next (s.hearing fun s => match s.report block with
    | some bytes => s.reply .accepted bytes
    | none => s.refuse .badArgument 0)

/-! ## READ_ENTRY -/

/-- An entry's place in the list of its group, counted from 0 at the head (R26). -/
def State.listPosition (i : PoolIndex) (e : Entry) (s : State) : Nat :=
  match e.state with
  | .staged => (s.group e.group).openList.idxOf i
  | .queued => (s.group e.group).drainList.idxOf i
  | .writing => (s.group e.group).drainList.idxOf i

/-- The generation field of an entry, and its draining sequence, zero for OPEN (R175). -/
def Generation.bytes : Generation → List Byte
  | .collecting => [0, 0, 0]
  | .draining n => [1] ++ bytesLE 2 n

/-- The 22 bytes of READ_ENTRY (R175). -/
def State.entryBytes (i : PoolIndex) (s : State) : List Byte :=
  match s.entry i with
  | none => List.replicate 22 0
  | some e =>
    [e.state.code] ++ bytesWord e.word ++ [e.mask] ++ (Lanes.masked e.mask e.data).toList ++ byteNat e.group.val ++
      e.gen.bytes ++ bytesLE 1 e.contributors ++ [e.count] ++ byteNat (s.listPosition i e)

/-- READ_ENTRY (R26). -/
def execReadEntry (index : Byte) (s : State) : Host.Outcome State Fault Refusal :=
  .next (s.hearing (State.unlessInit 22 fun s =>
    match argBelow 64 index with
    | none => s.refuse .badArgument 22
    | some i => s.reply .accepted (s.entryBytes i)))

/-! ## POP_CAPTURE -/

/-- The 32 bytes of a stored record (10.6). -/
def StoredRecord.bytes (r : StoredRecord) : List Byte :=
  match r.record with
  | .access channel stamp port direction word error payload skipped =>
    [1] ++ byteNat channel.val ++ byteBool stamp.running ++ [r.lost] ++ bytesLE 4 stamp.cycle ++ bytesLE 2 stamp.counter ++
      [portCode port, accessCode direction] ++ byteBool error ++ byteBool payload.isSome ++ bytesWord word ++
      (match payload with
        | some (mask, _) => [mask]
        | none => [0]) ++ bytesLE 2 skipped ++
      (match payload with
        | some (_, data) => data.toList
        | none => List.replicate 8 0) ++ [0, 0]
  | .commit group sequence stamp drained failed late =>
    [2] ++ byteNat group.val ++ byteBool stamp.running ++ [r.lost] ++ bytesLE 4 stamp.cycle ++ bytesLE 2 stamp.counter ++
      bytesLE 2 sequence ++ [drained, failed] ++ byteBool late ++ List.replicate 17 0

/-- The oldest record popped, or the EMPTY record (R148). -/
def State.popCapture (s : State) : State :=
  match s.cap.queue with
  | [] => s.reply .accepted (List.replicate 32 0)
  | r :: rest => ((s.withCap { s.cap with queue := rest }).refreshReady).reply .accepted r.bytes

/-- POP_CAPTURE (R148). -/
def execPopCapture (s : State) : Host.Outcome State Fault Refusal :=
  .next (s.hearing (State.unlessInit 32 State.popCapture))

end Sys2Proof.Machine
end

