-- ==== Sys2Proof/Machine/ResetLines.lean ====
section
/-! DEFINITION. The meanings of the reset and start-up rows: RESET_N_ASSERT, RESET_N_RELEASE and INIT_COMPLETE. -/

namespace Sys2Proof.Machine

/-- RESET_N_ASSERT (R180): every block abandons its work and returns to its starting state; a frame in progress is
abandoned (R167). -/
def execResetNAssert (s : State) : Host.Outcome State Fault Refusal := .next (s.startingState true false)

/-- RESET_N_RELEASE (R181): INIT begins and the µs clock begins to count from 0; the management port listens at once when
CS_N is high, and waits for it to be high otherwise (R167). DESIGN CHOICE: a line that is high already does not rise
(notes/assumptions/5.md). -/
def execResetNRelease (s : State) : Host.Outcome State Fault Refusal :=
  .next (if s.resetLow then s.startingState false (!s.mgmt.pins.csLow) else s)

/-- INIT_COMPLETE (R94, R181): when the µs clock reads 20 the bridge moves from INIT to BYPASS by itself. -/
def execInitComplete (s : State) : Host.Outcome State Fault Refusal := .next (s.awake State.initComplete)

end Sys2Proof.Machine
end

