-- ==== Sys2Proof/Machine/TimeRows.lean ====
section
/-! DEFINITION. The meanings of the rows of time and edges: US_CLOCK_ADVANCE, COUNTER_STEP, NATURAL_WRAP, SYNC_IN_EDGE,
COMMIT_IN_EDGE, HOLD_LIMIT_EXPIRY and DRAIN_BUDGET_EXPIRY. A row whose happening cannot come about in the state changes
nothing. DESIGN CHOICE: notes/assumptions/3.md. -/

namespace Sys2Proof.Machine

/-- US_CLOCK_ADVANCE (R118). -/
def execUsClockAdvance (s : State) : Host.Outcome State Fault Refusal := .next (s.awake State.usAdvance)

/-- COUNTER_STEP (R117, R124). -/
def execCounterStep (s : State) : Host.Outcome State Fault Refusal := .next (s.awake State.counterStep)

/-- NATURAL_WRAP (R123). -/
def execNaturalWrap (s : State) : Host.Outcome State Fault Refusal := .next (s.awake State.naturalWrap)

/-- SYNC_IN_EDGE (R128, R182). -/
def execSyncInEdge (s : State) : Host.Outcome State Fault Refusal :=
  .next (s.onEdge s.inputs.syncIn State.syncEdge)

/-- COMMIT_IN_EDGE (R34, R182). -/
def execCommitInEdge (s : State) : Host.Outcome State Fault Refusal :=
  .next (s.onEdge s.inputs.commitIn State.commitInEdge)

/-- HOLD_LIMIT_EXPIRY (R18). -/
def execHoldLimitExpiry (p : Port) (s : State) : Host.Outcome State Fault Refusal :=
  .next (s.awake (State.expireHold p))

/-- DRAIN_BUDGET_EXPIRY (R58). -/
def execDrainBudgetExpiry (g : GroupId) (s : State) : Host.Outcome State Fault Refusal :=
  .next (s.awake (State.expireBudget g))

end Sys2Proof.Machine
end

