-- ==== Sys2Proof/Machine/Dispatch.lean ====
section
/-! DEFINITION. exec: one arm per command, each one direct call of its meaning. -/

namespace Sys2Proof.Machine

def exec (i : Instr) (s : State) : Host.Outcome State Fault Refusal :=
  match i with
  | .resetNAssert => Sys2Proof.Machine.execResetNAssert s
  | .resetNRelease => Sys2Proof.Machine.execResetNRelease s
  | .initComplete => Sys2Proof.Machine.execInitComplete s
  | .usClockAdvance => Sys2Proof.Machine.execUsClockAdvance s
  | .counterStep => Sys2Proof.Machine.execCounterStep s
  | .naturalWrap => Sys2Proof.Machine.execNaturalWrap s
  | .syncInEdge => Sys2Proof.Machine.execSyncInEdge s
  | .commitInEdge => Sys2Proof.Machine.execCommitInEdge s
  | .holdLimitExpiry port => Sys2Proof.Machine.execHoldLimitExpiry port s
  | .drainBudgetExpiry group => Sys2Proof.Machine.execDrainBudgetExpiry group s
  | .requestAccept port request => Sys2Proof.Machine.execRequestAccept port request s
  | .stagedWritePlacement port => Sys2Proof.Machine.execStagedWritePlacement port s
  | .grant => Sys2Proof.Machine.execGrant s
  | .memoryResponse status data tag => Sys2Proof.Machine.execMemoryResponse status data tag s
  | .responseTaken port => Sys2Proof.Machine.execResponseTaken port s
  | .partialFrame sckEdges => Sys2Proof.Machine.execPartialFrame sckEdges s
  | .unknownCommand command => Sys2Proof.Machine.execUnknownCommand command s
  | .getSetting item index => Sys2Proof.Machine.execGetSetting item index s
  | .putSettingReferenceFrequency index value => Sys2Proof.Machine.execPutSettingReferenceFrequency index value s
  | .putSettingTimebasePrescale index value => Sys2Proof.Machine.execPutSettingTimebasePrescale index value s
  | .putSettingPeriod index value => Sys2Proof.Machine.execPutSettingPeriod index value s
  | .putSettingSyncEnable index value => Sys2Proof.Machine.execPutSettingSyncEnable index value s
  | .putSettingGrantPolicy index value => Sys2Proof.Machine.execPutSettingGrantPolicy index value s
  | .putSettingCaptureThreshold index value => Sys2Proof.Machine.execPutSettingCaptureThreshold index value s
  | .putSettingGroupEnabled index value => Sys2Proof.Machine.execPutSettingGroupEnabled index value s
  | .putSettingTriggerSource index value => Sys2Proof.Machine.execPutSettingTriggerSource index value s
  | .putSettingSlotOffset index value => Sys2Proof.Machine.execPutSettingSlotOffset index value s
  | .putSettingMode index value => Sys2Proof.Machine.execPutSettingMode index value s
  | .putSettingFullPolicy index value => Sys2Proof.Machine.execPutSettingFullPolicy index value s
  | .putSettingEntryLimit index value => Sys2Proof.Machine.execPutSettingEntryLimit index value s
  | .putSettingHoldLimit index value => Sys2Proof.Machine.execPutSettingHoldLimit index value s
  | .putSettingDrainBudget index value => Sys2Proof.Machine.execPutSettingDrainBudget index value s
  | .putSettingLogCommits index value => Sys2Proof.Machine.execPutSettingLogCommits index value s
  | .putSettingChannelEnabled index value => Sys2Proof.Machine.execPutSettingChannelEnabled index value s
  | .putSettingDirection index value => Sys2Proof.Machine.execPutSettingDirection index value s
  | .putSettingChannelPrescale index value => Sys2Proof.Machine.execPutSettingChannelPrescale index value s
  | .putSettingGate index value => Sys2Proof.Machine.execPutSettingGate index value s
  | .putSettingRearmAtWrap index value => Sys2Proof.Machine.execPutSettingRearmAtWrap index value s
  | .putSettingMatch index value mask => Sys2Proof.Machine.execPutSettingMatch index value mask s
  | .putSettingRecordData index value => Sys2Proof.Machine.execPutSettingRecordData index value s
  | .putWindow window base limit portSet cls group view capturePresent captureChannel => Sys2Proof.Machine.execPutWindow window base limit portSet cls group view capturePresent captureChannel s
  | .enableWindow window => Sys2Proof.Machine.execEnableWindow window s
  | .disableWindow window => Sys2Proof.Machine.execDisableWindow window s
  | .readWindow window => Sys2Proof.Machine.execReadWindow window s
  | .readStatus block => Sys2Proof.Machine.execReadStatus block s
  | .readEntry index => Sys2Proof.Machine.execReadEntry index s
  | .popCapture => Sys2Proof.Machine.execPopCapture s
  | .commitNow groups => Sys2Proof.Machine.execCommitNow groups s
  | .abortGroup group => Sys2Proof.Machine.execAbortGroup group s
  | .rearm channels => Sys2Proof.Machine.execRearm channels s
  | .startTimebase => Sys2Proof.Machine.execStartTimebase s
  | .stopTimebase => Sys2Proof.Machine.execStopTimebase s
  | .enableBridge => Sys2Proof.Machine.execEnableBridge s
  | .disableBridge => Sys2Proof.Machine.execDisableBridge s
  | .resetDatapath => Sys2Proof.Machine.execResetDatapath s
  | .clearCauses causes => Sys2Proof.Machine.execClearCauses causes s
  | .setEnables causes => Sys2Proof.Machine.execSetEnables causes s
  | .readIdentity => Sys2Proof.Machine.execReadIdentity s
  | .putSettingUnknownItem item index => Sys2Proof.Machine.execPutSettingUnknownItem item index s

end Sys2Proof.Machine
end

