-- ==== Sys2Proof/Machine/ManagementPins.lean ====
section
/-! DEFINITION. The pins of the management port (R166, R167): what the edges of CS_N and SCK do to the frame in progress,
the rows they bring to the queue, and what SDO carries. No row of the table is an edge of these pins, so step does not take
them: the board's SPI host moves them, and the rows it brings about wait in the queue like any other
(notes/assumptions/10.md). -/

namespace Sys2Proof.Machine

/-! ## Bits and bytes -/

/-- The bits of a byte as they travel, most significant first (R166). -/
def byteBits (b : Byte) : List Bool := (List.range 8).map fun k => b.getLsbD (7 - k)

/-- The byte that eight bits spell, most significant first (R166). -/
def byteOfBits (bits : List Bool) : Byte := bits.foldl (fun b x => (b <<< 1) ||| (if x then 1 else 0)) 0

/-- The whole bytes that the bits sampled on SDI spell; bits of a byte that is not complete spell none. -/
def sdiBytes (bits : List Bool) : List Byte :=
  (List.range (bits.length / 8)).map fun n => byteOfBits ((bits.drop (8 * n)).take 8)

/-! ## Edges -/

/-- An edge at the port: of CS_N, or of SCK, a rising one with the level of SDI that it samples. -/
inductive PinEdge where
  | csFall
  | csRise
  | sckRise (sdi : Bool)
  | sckFall
deriving DecidableEq, Repr

/-- The pins of the port replaced. -/
def State.withPins (x : FramePins) (s : State) : State := s.withMgmt { s.mgmt with pins := x }

/-- A row joins the queue of waiting commands at its tail. -/
def State.enqueue (c : Instr) (s : State) : State := { s with pending := s.pending ++ [c] }

/-- SCK and SDI are followed: CS_N is low, and RESET_N is not (R166, R167). -/
def State.selected (s : State) : Bool := !s.resetLow && s.mgmt.pins.csLow

/-- One rising edge of SCK (R166): the bit on SDI is sampled, and when it completes the last argument byte the command is
evaluated. After evaluation SDI is ignored. -/
def State.sampleBit (sdi : Bool) (s : State) : State :=
  if s.selected && !s.mgmt.pins.evaluated then
    let bits := s.mgmt.pins.bits ++ [sdi]
    match decodeFrame (sdiBytes bits) with
    | some c => (s.withPins { s.mgmt.pins with bits := bits, evaluated := true }).enqueue c
    | none => s.withPins { s.mgmt.pins with bits := bits }
  else s

/-- CS_N rises (R167): a frame whose command is not evaluated is a partial frame, after so many rising edges of SCK. -/
def State.endFrame (s : State) : State :=
  let ended := s.withPins { s.mgmt.pins with csLow := false }
  if s.selected && !s.mgmt.pins.evaluated then ended.enqueue (.partialFrame s.mgmt.pins.bits.length) else ended

/-- One edge at the pins. A frame begins where CS_N falls (R166); while CS_N is high or RESET_N low, SCK and SDI are ignored
(R166, R167). -/
def State.pinEdge (e : PinEdge) (s : State) : State :=
  match e with
  | .csFall => if s.mgmt.pins.csLow then s else s.withPins (FramePins.idle true)
  | .csRise => s.endFrame
  | .sckRise sdi => s.sampleBit sdi
  | .sckFall => if s.selected then s.withPins { s.mgmt.pins with falls := s.mgmt.pins.falls + 1 } else s

/-- Several edges, one after another. -/
def State.pinEdges : List PinEdge → State → State
  | [], s => s
  | e :: rest, s => State.pinEdges rest (s.pinEdge e)

/-- SCK clocks bits in, from its idle level low and back to it (mode 0). -/
def clockBits (bits : List Bool) : List PinEdge := bits.flatMap fun b => [.sckRise b, .sckFall]

/-! ## SDO -/

/-- The level of SDO: not driven while CS_N is high; otherwise the bit that the falling edges of SCK have brought to the
output, most significant first, zero until the result of the command is formed (R166). -/
def State.sdo (s : State) : Option Bool :=
  let p := s.mgmt.pins
  if p.csLow then
    match p.evaluated, s.mgmt.result with
    | true, some r => some ((r.sdoByte (p.bits.length / 8 - 1) (p.falls / 8)).getLsbD (7 - p.falls % 8))
    | _, _ => some false
  else none

end Sys2Proof.Machine
end

