-- ==== Sys2Proof/Safety.lean ====
section
/-! DEFINITION. What a state of the block must satisfy at every moment, in the terms the statements use: one predicate per
block, each kept by every step from any state that has it, and the vocabulary of the statements about commits, results and
queues. -/

namespace Sys2Proof.Machine

/-! ## Invariants -/

/-- IRQ_N is asserted exactly while at least one enabled cause is set (R158). -/
def State.irqAgrees (s : State) : Prop := s.ev.irq = decide (s.ev.causes &&& s.ev.enables ≠ 0)

/-- The capture queue holds at most 32 records (R146), the threshold lies in 1-32, and CAPTURE_READY is set exactly while
the queue holds at least the threshold (R149). -/
def State.captureAgrees (s : State) : Prop :=
  s.cap.queue.length ≤ 32 ∧ 1 ≤ s.cap.threshold.toNat ∧ s.cap.threshold.toNat ≤ 32 ∧
    s.ev.causes.getLsbD 18 = decide (s.cap.threshold.toNat ≤ s.cap.queue.length)

/-- A channel's prescale count is 0 whenever it is GATED (R134), and never above its prescale (R139). -/
def State.channelsAgree (s : State) : Prop :=
  ∀ c : ChannelId, ((s.channel c).state = .gated → (s.channel c).prescaleCount = 0) ∧
    (s.channel c).prescaleCount.toNat ≤ (s.channel c).prescale.toNat

/-- The period in force and a pending one lie in 2-65535, and a RUNNING counter is below the period in force (R125); the
reference frequency lies in 10-200 (R118). -/
def State.timebaseAgrees (s : State) : Prop :=
  2 ≤ s.tb.period.toNat ∧ (∀ v, s.tb.pendingPeriod = some v → 2 ≤ v.toNat) ∧
    (s.tb.running = true → s.tb.counter.toNat < s.tb.period.toNat) ∧
    10 ≤ s.tb.refFreq.toNat ∧ s.tb.refFreq.toNat ≤ 200

/-- The order of a port's queue (R102): requests ON_M or ANSWERED, then at most one HEAD, and BEHIND requests only after a
HEAD. -/
def queueOrdered : List QueuedRequest → Bool
  | [] => true
  | r :: rest =>
    match r.progress with
    | .onM _ => queueOrdered rest
    | .answered _ => queueOrdered rest
    | .head _ _ => rest.all fun x => x.progress.isBehind
    | .behind => false

/-- A port's queue is in the order of R102 and holds at most 4 requests, and a request waits on the bus only while it is
full (R101). -/
def PortState.ordered (p : PortState) : Prop :=
  queueOrdered p.queue = true ∧ p.queue.length ≤ 4 ∧ (p.waiting ≠ [] → p.queue.length = 4)

/-- Both ports are in order, and port M has at most four requests outstanding (R63). -/
def State.portsOrdered (s : State) : Prop :=
  s.portA.ordered ∧ s.portB.ordered ∧ s.arb.outstanding.length ≤ 4

/-- The window a port's head is in passage of: the window of a staged write that is in passage or held (R84). -/
def State.passageWindow (p : Port) (s : State) : Option WindowId :=
  match s.head p with
  | some ⟨_, .head cls (.passage _)⟩ => cls.window
  | some ⟨_, .head cls .held⟩ => cls.window
  | _ => none

/-- The head of a port is held (R108). -/
def State.headHeld (p : Port) (s : State) : Bool :=
  match s.head p with
  | some ⟨_, .head _ .held⟩ => true
  | _ => false

/-- Every window counts the writes in passage at the two heads (R84), and the hold records are those of the held heads, one
for each (R15). -/
def State.headsAgree (s : State) : Prop :=
  (∀ w : WindowId, (s.window w).passage =
    ([Port.a, Port.b].filter fun p => decide (s.passageWindow p = some w)).length) ∧
  (s.holds.map (·.port)).Nodup ∧
  ∀ p : Port, s.headHeld p = true ↔ p ∈ s.holds.map (·.port)

/-- The requests of a port in BEHIND or HEAD (R112). -/
def PortState.unsettled (p : PortState) : Nat := (p.queue.filter fun r => r.progress.isUnsettled).length

/-- The balance of a port's counts (R112). -/
def PortState.balanced (p : PortState) : Prop :=
  p.counts.requests =
    p.counts.passReads + p.counts.passWrites + p.counts.forwarded + p.counts.stagedPlaced + p.counts.errRejected +
      p.counts.errTimeout + p.counts.errDiscarded + BitVec.ofNat 32 p.unsettled

/-- The balance of a group's counts (R47). -/
def Group.balanced (g : Group) : Prop :=
  g.counts.allocated =
    g.counts.drained + g.counts.failed + g.counts.discarded + BitVec.ofNat 32 (g.openList.length + g.drainList.length)

/-- Every group's open generation is within its entry limit (R13). -/
def State.openWithinLimit (s : State) : Prop :=
  ∀ g : GroupId, (s.group g).openList.length ≤ (s.group g).entryLimit.toNat

/-- COMMIT_BUSY is asserted exactly while a generation is queued or a leftover write outstanding (R60), and the arbiter is
escalated exactly while a late generation is queued (R59). -/
def State.drainLinesAgree (s : State) : Prop :=
  s.drain.commitBusy = !(s.drain.queue.isEmpty && s.drain.leftovers.isEmpty) ∧
    s.arb.escalated = s.drain.queue.any (·.late)

/-- Every window's base and limit are multiples of 4096 with the limit not below the base, and its port set is not empty
(R84); no two enabled windows share a port and overlap, and an enabled STAGED window names an enabled group (R88). -/
def State.windowsAgree (s : State) : Prop :=
  (∀ w : WindowId, (s.window w).base.toNat % 4096 = 0 ∧ (s.window w).limit.toNat % 4096 = 0 ∧
    (s.window w).base.toNat ≤ (s.window w).limit.toNat ∧ (s.window w).ports ≠ 0) ∧
  (∀ v w : WindowId, v ≠ w → (s.window v).enabled = true → (s.window w).enabled = true →
    (s.window v).sharesPort (s.window w) = true → (s.window v).overlaps (s.window w) = false) ∧
  ∀ (w : WindowId) (g : GroupId), (s.window w).names g = true → (s.group g).enabled = true

/-! ## Staged data: pool, lists, drain queue and port M -/

/-- The pool and the group lists agree (R1, R3, R5): no index stands twice in a group's lists; an open list holds exactly
the STAGED entries of its group, with generation OPEN; a draining list exactly its QUEUED and WRITING entries, with
generation DRAINING under the group's commit sequence. -/
def State.listsAgree (s : State) : Prop :=
  ∀ g : GroupId,
    ((s.group g).openList ++ (s.group g).drainList).Nodup ∧
    (∀ i, i ∈ (s.group g).openList ↔
      ∃ e, s.entry i = some e ∧ e.group = g ∧ e.state = .staged) ∧
    (∀ i, i ∈ (s.group g).drainList ↔
      ∃ e, s.entry i = some e ∧ e.group = g ∧ e.state ≠ .staged) ∧
    (∀ i e, s.entry i = some e → e.group = g →
      e.gen = if e.state = .staged then .collecting else .draining (s.group g).sequence)

/-- The drain writes outstanding on port M are exactly the WRITING entries, each once (R20, R61, R65). -/
def State.writesAgree (s : State) : Prop :=
  s.outstandingDrains.Nodup ∧
    ∀ (g : GroupId) (i : PoolIndex),
      (g, i) ∈ s.outstandingDrains ↔ i ∈ (s.group g).drainList ∧ s.entryIs .writing i = true

/-- A record of the drain queue agrees with its group (R50): a draining list that is not empty, its commit sequence, and
next to issue the first QUEUED entry of the list. -/
def State.recordAgrees (s : State) (d : Drain) : Prop :=
  (s.group d.group).drainList ≠ [] ∧ d.sequence = (s.group d.group).sequence ∧
    d.next = s.firstQueued (s.group d.group).drainList

/-- The fence (R51): behind the head, and at the head while leftover writes are outstanding, a generation is WAITING with
no write outstanding; otherwise every outstanding drain write is the head's, and the head is ISSUING while it has a QUEUED
entry and CLOSING after that. -/
def State.fenced (s : State) : Prop :=
  (∀ d ∈ s.drain.queue.tail, d.phase = .waiting ∧ d.outstanding = 0) ∧
  (s.drain.leftovers ≠ [] →
    s.outstandingDrains = s.drain.leftovers ∧
      ∀ d ∈ s.drain.queue, d.phase = .waiting ∧ d.outstanding = 0 ∧ d.group ∉ s.drain.leftovers.map (·.1)) ∧
  (s.drain.leftovers = [] →
    match s.drain.queue with
    | [] => s.outstandingDrains = []
    | d :: _ => d.phase = (if d.next.isSome then .issuing else .closing) ∧
        d.outstanding = s.outstandingDrains.length ∧ ∀ x ∈ s.outstandingDrains, x.1 = d.group)

/-- The staged data of the block agree in all their places: pool, lists, drain queue, outstanding writes; and an entry of a
draining list belongs to a generation of the drain queue or to a write left over from RESET_DATAPATH. -/
def State.stagedDataAgree (s : State) : Prop :=
  s.listsAgree ∧ s.writesAgree ∧ (s.drain.queue.map (·.group)).Nodup ∧ (∀ d ∈ s.drain.queue, s.recordAgrees d) ∧
    s.fenced ∧
    ∀ (g : GroupId) (i : PoolIndex), i ∈ (s.group g).drainList →
      g ∈ s.drain.queue.map (·.group) ∨ (g, i) ∈ s.drain.leftovers

/-! ## When a frame is heard -/

/-- The management port takes frames: RESET_N is high, and CS_N has been seen high since its release (R167). -/
abbrev State.takesFrames (s : State) : Prop := s.resetLow = false ∧ s.mgmt.listening = true

/-! ## The vocabulary of the statements -/

/-- The settings of a group, its slot offsets and its range indication are as before. -/
def Group.sameSettings (before after : Group) : Prop :=
  after.enabled = before.enabled ∧ after.trigger = before.trigger ∧ after.slotOffset = before.slotOffset ∧
    after.pendingOffset = before.pendingOffset ∧ after.outOfRange = before.outOfRange ∧ after.mode = before.mode ∧
    after.policy = before.policy ∧ after.entryLimit = before.entryLimit ∧ after.holdLimit = before.holdLimit ∧
    after.drainBudget = before.drainBudget ∧ after.logCommits = before.logCommits

/-- What a group shows after a commit event it took (R35, R36): the next sequence number, one more commit taken, the stamp
of the event, the open list as it stood now the draining list, and the first-fault address absent unless the commit was
empty. What the retries of held writes add to the new open list is left open. -/
def Group.committed (stamp : Stamp) (before after : Group) : Prop :=
  after.sequence = before.sequence + 1 ∧ after.lastCommit = some stamp ∧
    after.counts.commitsTaken = before.counts.commitsTaken + 1 ∧
    after.counts.missedSlots = before.counts.missedSlots ∧ after.drainList = before.openList ∧
    after.firstFault = (if before.openList = [] then before.firstFault else none) ∧ before.sameSettings after

/-- What a group shows after a missed slot (R37): one more missed slot and nothing else. -/
def Group.missed (before after : Group) : Prop :=
  after = { before with counts := { before.counts with missedSlots := before.counts.missedSlots + 1 } }

/-- What a slot instant or a COMMIT_IN edge does to a group it reaches or does not reach (R34, R35, R37). -/
def Group.slotOutcome (reached : Bool) (stamp : Stamp) (before after : Group) : Prop :=
  if reached = true then
    if before.drainList = [] then before.committed stamp after else before.missed after
  else after = before

/-- The fields a record of the drain queue takes from its commit event (R50). -/
def Drain.origin (d : Drain) : GroupId × BitVec 16 × Stamp × BitVec 32 × BitVec 12 :=
  (d.group, d.sequence, d.stamp, d.moment, d.budget)

/-- The groups, in ascending order, whose commit event creates a draining generation (R34, R35). -/
def newGenerations (reached : GroupId → Bool) (groups : GroupId → Group) : List GroupId :=
  (List.finRange 4).filter fun g =>
    reached g && decide ((groups g).drainList = []) && decide ((groups g).openList ≠ [])

/-- A happening taken as a commit event by some groups: each group's outcome, the generations appended to the drain queue
in ascending group number with COMMIT_BUSY, and SLOT_MISSED for the groups that missed it. Without held writes nothing of
the ports and the windows changes; the arbiter and the operating state never do. -/
def State.slotsTaken (reached : GroupId → Bool) (stamp : Stamp) (groups : GroupId → Group) (before after : State) : Prop :=
  (∀ g : GroupId, (groups g).slotOutcome (reached g) stamp (after.group g)) ∧
    (∃ new : List Drain, after.drain.queue = before.drain.queue ++ new ∧
      new.map Drain.origin = (newGenerations reached groups).map fun g =>
        (g, (groups g).sequence + 1, stamp, before.tb.usClock, (groups g).drainBudget)) ∧
    after.drain.leftovers = before.drain.leftovers ∧
    after.drain.commitBusy = (before.drain.commitBusy || !(newGenerations reached groups).isEmpty) ∧
    (∀ g : GroupId, after.ev.causes.getLsbD g.val =
      (before.ev.causes.getLsbD g.val || (reached g && decide ((groups g).drainList ≠ [])))) ∧
    after.arb = before.arb ∧ after.op = before.op ∧
    (before.holds = [] → after.portA = before.portA ∧ after.portB = before.portB ∧ after.windows = before.windows ∧
      after.holds = [])

/-- A group takes a slot instant for a counter value: enabled, TIMER, its offset in force equal to the value, the bridge
ACTIVE (R34). -/
def State.slotReaches (s : State) (groups : GroupId → Group) (value : BitVec 16) (g : GroupId) : Bool :=
  decide (s.op = .active) && (groups g).enabled && decide ((groups g).trigger = .timer) &&
    decide ((groups g).slotOffset = value)

/-- A group after the pending values of a wrap are applied and, when any value was pending, the slot range is evaluated
(R123, R127). -/
def State.groupAtWrap (s : State) (g : GroupId) : Group :=
  { s.group g with
    slotOffset := (s.group g).pendingOffset.getD (s.group g).slotOffset
    pendingOffset := none
    outOfRange :=
      if s.anyPending then
        decide ((s.tb.pendingPeriod.getD s.tb.period).toNat ≤
          ((s.group g).pendingOffset.getD (s.group g).slotOffset).toNat)
      else (s.group g).outOfRange }

/-- A row brings a commit event to a group (R34, R124): a COMMIT_IN edge, or the slot instant of the counter value that the
end of a tick, a forced wrap or a start enters. -/
def State.rowReaches (s : State) (c : Instr) (g : GroupId) : Bool :=
  match c with
  | .commitInEdge => decide (s.inputs.commitIn.seen ≠ .highFromRelease) && decide (s.op = .active) &&
      (s.group g).enabled && decide ((s.group g).trigger = .external)
  | .counterStep => s.tb.running && decide (s.tb.counter.toNat + 1 < s.tb.period.toNat) &&
      s.slotReaches s.group (s.tb.counter + 1) g
  | .naturalWrap => s.tb.running && decide (s.tb.period.toNat ≤ s.tb.counter.toNat + 1) &&
      s.slotReaches s.groupAtWrap 0 g
  | .syncInEdge => decide (s.inputs.syncIn.seen ≠ .highFromRelease) && s.tb.running && s.tb.syncEnable &&
      s.slotReaches s.groupAtWrap 0 g
  | .startTimebase => s.mgmt.listening && !s.tb.running && s.slotReaches s.group 0 g
  | _ => false

/-- A channel after a wrap (R142). -/
def Channel.atWrap (ch : Channel) : Channel :=
  if ch.state = .gated ∧ ch.rearmAtWrap = true then { ch with state := .armed, prescaleCount := 0 } else ch

/-- The effects of a wrap, natural or forced (R123), given the timebase after it. -/
def State.wrapped (tb : Timebase) (before after : State) : Prop :=
  after.tb = tb ∧
    before.slotsTaken (before.slotReaches before.groupAtWrap 0) ⟨before.tb.cycle + 1, 0, true⟩ before.groupAtWrap after ∧
    after.ev.causes.getLsbD 15 =
      (before.ev.causes.getLsbD 15 ||
        (before.anyPending && (List.finRange 4).any fun g => (before.groupAtWrap g).outOfRange)) ∧
    (before.holds = [] → ∀ c : ChannelId, after.channel c = (before.channel c).atWrap)

/-- The timebase after a wrap: counter 0, one more cycle, every pending value in force (R123). -/
def Timebase.wrapped (t : Timebase) : Timebase :=
  { t with
    counter := 0
    cycle := t.cycle + 1
    period := t.pendingPeriod.getD t.period
    pendingPeriod := none
    prescale := t.pendingPrescale.getD t.prescale
    pendingPrescale := none }

/-- One request of a queue goes on, everything before it standing as before and everything behind it keeping its place
(R102, R107). -/
def queueMoves (r : BusRequest) (old new : Progress) (before after : List QueuedRequest) : Prop :=
  ∃ pre post post' : List QueuedRequest,
    before = pre ++ ⟨r, old⟩ :: post ∧ after = pre ++ ⟨r, new⟩ :: post' ∧
      post'.map (·.request) = post.map (·.request)

/-- A queue after some happening: every request that was there stands in its place with the answer it had if it had one,
and newly accepted requests stand behind (R101, R107). -/
def queueGrows (before after : List QueuedRequest) : Prop :=
  ∃ old new : List QueuedRequest, after = old ++ new ∧
    List.Forall₂ (fun x y => y.request = x.request ∧ ∀ a, x.progress = .answered a → y.progress = .answered a) before old

/-- The first requester met in a list that waits (R64). -/
def State.firstMet (s : State) (among : List Requester) (r : Requester) : Prop :=
  ∃ pre post : List Requester, among = pre ++ r :: post ∧ s.waits r = true ∧ ∀ x ∈ pre, s.waits x = false

/-- The choice of a grant as R59 and R64 give it. -/
def State.grantRule (s : State) (r : Requester) : Prop :=
  if s.arb.escalated = true ∧ s.waits .drain = true then r = .drain
  else match s.arb.policy with
    | .rotate => s.firstMet s.arb.pointer.cycleFrom r
    | .portsFirst =>
      if s.waits (.port .a) = true ∨ s.waits (.port .b) = true then
        s.firstMet (s.arb.pointer.cycleFrom.filter (·.isPort)) r
      else r = .drain ∧ s.waits .drain = true
    | .drainFirst =>
      if s.waits .drain = true then r = .drain
      else s.firstMet (s.arb.pointer.cycleFrom.filter (·.isPort)) r

/-- The owner an outstanding item records is the requester granted (R65). -/
def Owner.isOf (r : Requester) : Owner → Prop
  | .port p _ _ => r = .port p
  | .drain _ _ => r = .drain

/-- A write of a group finds no entry to merge with (R8, R10): SEQUENCE mode, or no open entry of its word. -/
def State.needsEntry (s : State) (g : GroupId) (word : WordIndex) : Prop :=
  (s.group g).mode = .sequence ∨ ∀ j ∈ (s.group g).openList, ∀ x, s.entry j = some x → x.word ≠ word

/-- A group can have no further entry (R13): its open list is at the entry limit, or the pool is full. -/
def State.hasNoRoom (s : State) (g : GroupId) : Prop :=
  (s.group g).entryLimit.toNat ≤ (s.group g).openList.length ∨ ∀ j : PoolIndex, (s.entry j).isSome = true

/-- An entry after a write has merged into it (R8). -/
def Entry.joined (p : Port) (m : LaneSet) (d : Lanes) (e : Entry) : Entry :=
  { e with
    data := Vector.ofFn fun k => if m.getLsbD k then d[k] else e.data[k]
    mask := e.mask ||| m
    count := if e.count = 255 then 255 else e.count + 1
    contributors := e.contributors ||| p.asSet }

/-- The entry a write allocates (R2, R4); zero in the lanes it does not carry (notes/assumptions/21.md). -/
def Entry.opened (p : Port) (g : GroupId) (word : WordIndex) (m : LaneSet) (d : Lanes) : Entry :=
  { word := word, mask := m, data := Vector.ofFn fun k => if m.getLsbD k then d[k] else 0, group := g
    gen := .collecting, state := .staged, contributors := p.asSet, count := 1 }

/-- Rows taken one after another, each with its own effect. -/
def runRows : List Instr → State → Host.Outcome State Fault Refusal
  | [], s => .next s
  | c :: rest, s =>
    match exec c s with
    | .next t => runRows rest t
    | .fault f => .fault f
    | .refused r => .refused r

/-! ## Result and argument bytes, as R169 gives them -/

/-- A number in n bytes, the least significant first. -/
def numberBytes (n v : Nat) : List Byte := (List.range n).map fun k => BitVec.ofNat 8 (v / 256 ^ k)

/-- On 1, off 0. -/
def flagByte (b : Bool) : Byte := if b = true then 1 else 0

/-- An item that may be absent, of the given length: a presence byte and the item, all zero when it is absent. -/
def presentBytes (length : Nat) : Option (List Byte) → List Byte
  | none => List.replicate (length + 1) 0
  | some item => 1 :: item

/-- A stamp: cycle number, counter, running flag. -/
def stampBytes (t : Stamp) : List Byte :=
  numberBytes 4 t.cycle.toNat ++ numberBytes 2 t.counter.toNat ++ [flagByte t.running]

/-- The number that bytes spell, the least significant first. -/
def littleEndian : List Byte → Nat
  | [] => 0
  | b :: rest => b.toNat + 256 * littleEndian rest

/-- The range of a settings item, by the table of 10.4; every match setting is in range. -/
def settingRange (item : Byte) : Nat × Nat :=
  match item.toNat with
  | 1 => (10, 200)
  | 3 => (2, 65535)
  | 4 | 16 | 19 | 20 | 24 | 32 | 35 | 36 | 38 => (0, 1)
  | 5 | 17 | 33 => (0, 2)
  | 6 => (1, 32)
  | 21 => (1, 64)
  | 22 | 23 => (0, 4095)
  | 37 => (0, 256 ^ 16 - 1)
  | _ => (0, 65535)

/-- The index of a settings item is in its range, 0 for a global item and 0-3 for a group or channel item, and so is its
value (10.4, R172). -/
def settingInRange (item index : Byte) (value : List Byte) : Prop :=
  (if item.toNat < 16 then index = 0 else index.toNat < 4) ∧
    (settingRange item).1 ≤ littleEndian value ∧ littleEndian value ≤ (settingRange item).2

/-- The argument checks of PUT_WINDOW (R86, R174). -/
def windowArgumentsOk (window : Byte) (base limit : BitVec 40)
    (portSet cls group view capturePresent captureChannel : Byte) : Prop :=
  window.toNat < 8 ∧ base.toNat < 2 ^ 36 ∧ limit.toNat < 2 ^ 36 ∧ base.toNat % 4096 = 0 ∧ limit.toNat % 4096 = 0 ∧
    base.toNat ≤ limit.toNat ∧ 1 ≤ portSet.toNat ∧ portSet.toNat ≤ 3 ∧
    (cls = 0 ∨ cls = 1 ∧ group.toNat < 4 ∧ view.toNat ≤ 1) ∧
    (capturePresent = 0 ∨ capturePresent = 1 ∧ captureChannel.toNat < 4)

end Sys2Proof.Machine

namespace Sys2Proof

/-- A row that is a frame with a command the port evaluates (R166). -/
def Instr.isFrame (c : Instr) : Bool := (encodeFrame c).isSome

/-- The full length of a command's result data, for the commands with one (10.3, R168); READ_STATUS has none when it is
refused. -/
def Instr.dataLength : Instr → Nat
  | .getSetting item _ => (settingValueBytes item).getD 0
  | .enableWindow _ => 2
  | .readWindow _ => 20
  | .readEntry _ => 22
  | .popCapture => 32
  | .commitNow _ => 2
  | .abortGroup _ => 1
  | .rearm _ => 1
  | .disableBridge => 1
  | .resetDatapath => 3
  | .clearCauses _ => 7
  | .setEnables _ => 7
  | .readIdentity => 5
  | _ => 0

end Sys2Proof
end

