-- ==== Sys2Proof/Certificates/Slice0/Obligations.lean ====
section
/-! DEFINITION. The statements for the provers, in the order of the manual's blocks: the queue and the resets, the
management port, windows, the upstream ports, the staging table, commits, the drain engine and the arbiter, reads, the
timebase, capture, events, and the invariants every step keeps. -/

section

open Sys2Proof Sys2Proof.Machine

/-! ## The block, its queue and its resets -/

/-- A step takes the command at the front of the queue and runs it with the queue's rest (R170; the form of a block). -/
def Obligations.StepTakesTheFrontCommand : Prop :=
  ∀ (c : Instr) (rest : List Instr) (s : State), s.pending = c :: rest → step s = exec c { s with pending := rest }

/-- The model's choice (notes/assumptions/2.md): on an empty queue one REFCLK period passes while RESET_N is high. It counts
in the divider of the microsecond and, while RUNNING, in that of the tick (R117, R118). At the end of a microsecond the rows
that fall due are taken in the order named here, an expiry not due changing nothing, then at the end of a tick
COUNTER_STEP or NATURAL_WRAP, and then the edges that the sampling of SYNC_IN and COMMIT_IN takes: a line seen high after
having been seen low gives one, and one that is high since the release of RESET_N gives none until it has been seen low
(R182; that every period samples is notes/assumptions/32.md). While RESET_N is low nothing passes. -/
def Obligations.EmptyQueueStepIsOneRefclkPeriod : Prop :=
  ∀ s : State, s.pending = [] →
    (s.resetLow = true → step s = .next s) ∧
    (s.resetLow = false →
      let usEnds := decide (s.tb.usLength.toNat ≤ s.tb.usDivider.toNat + 1)
      let tickEnds := s.tb.running && decide (s.tb.prescale.toNat ≤ s.tb.tickDivider.toNat)
      let sampled := fun x : EdgeInput => match x.high, x.seen with
        | false, _ => (⟨false, .low⟩ : EdgeInput)
        | true, .highFromRelease => ⟨true, .highFromRelease⟩
        | true, _ => ⟨true, .high⟩
      step s = runRows
        ((if usEnds then [.usClockAdvance, .initComplete, .holdLimitExpiry .a, .holdLimitExpiry .b, .drainBudgetExpiry 0,
            .drainBudgetExpiry 1, .drainBudgetExpiry 2, .drainBudgetExpiry 3] else []) ++
          (if tickEnds then [if s.tb.counter.toNat + 1 < s.tb.period.toNat then .counterStep else .naturalWrap] else []) ++
          (if s.inputs.syncIn = ⟨true, .low⟩ then [.syncInEdge] else []) ++
          if s.inputs.commitIn = ⟨true, .low⟩ then [.commitInEdge] else [])
        { s with
          tb := { s.tb with
            usDivider := if usEnds then 0 else s.tb.usDivider + 1
            tickDivider := if tickEnds then 0 else if s.tb.running then s.tb.tickDivider + 1 else s.tb.tickDivider }
          inputs := ⟨sampled s.inputs.syncIn, sampled s.inputs.commitIn⟩ })

/-- Every command that spells a happening of its row completes in every state and leaves the queue alone, and all but the two
RESET_N rows leave SYNC_IN and COMMIT_IN and what has been seen of them (R182; notes/assumptions/10.md); every other term is
refused as ill-formed (notes/assumptions/9.md). The block never stops by itself. -/
def Obligations.EveryWellFormedCommandCompletes : Prop :=
  ∀ (c : Instr) (s : State),
    (c.wellFormed = true → ∃ t, exec c s = .next t ∧ t.pending = s.pending ∧
      (c ≠ .resetNAssert → c ≠ .resetNRelease → t.inputs = s.inputs)) ∧
    (c.wellFormed = false → ∃ m, exec c s = .refused (.illFormed m))

/-- RESET_N_ASSERT brings every block to its starting state and abandons a frame in progress (R167, R180); while the line is
low every other command but the release changes nothing. RESET_N_RELEASE begins INIT with every block in its starting state
and the µs clock at 0 (R181); the management port listens unless CS_N is low. A frame under a CS_N that has been low since
the release is ignored and not counted, and the port listens after it (R167). SYNC_IN and COMMIT_IN keep their levels; one
that is high then has not been seen low (R182), and one that is low counts as seen low (notes/assumptions/32.md). That queued
rows wait through the low line, and that a line that is high does not rise, are the model's readings
(notes/assumptions/4.md, 5.md); the level of CS_N is an input held in the state (notes/assumptions/10.md). -/
def Obligations.ResetLineEdges : Prop :=
  let released := fun high : Bool => (⟨high, if high then .highFromRelease else .low⟩ : EdgeInput)
  ((∀ s : State, exec .resetNAssert s = .next { State.reset with
      resetLow := true
      mgmt := ⟨0, none, false, ⟨s.mgmt.pins.csLow, [], 0, false⟩⟩
      inputs := ⟨released s.inputs.syncIn.high, released s.inputs.commitIn.high⟩
      pending := s.pending }) ∧
  ∀ (c : Instr) (s : State), s.resetLow = true → c.wellFormed = true → c ≠ .resetNAssert → c ≠ .resetNRelease →
    exec c s = .next s) ∧
  (∀ s : State,
    (s.resetLow = true → ∃ t, exec .resetNRelease s = .next t ∧ t = { State.reset with
        mgmt := ⟨0, none, !s.mgmt.pins.csLow, ⟨s.mgmt.pins.csLow, [], 0, false⟩⟩
        inputs := ⟨released s.inputs.syncIn.high, released s.inputs.commitIn.high⟩
        pending := s.pending } ∧
      t.op = .init ∧ t.tb.usClock = 0) ∧
    (s.resetLow = false → exec .resetNRelease s = .next s)) ∧
  ∀ (c : Instr) (s : State), s.resetLow = false → s.mgmt.listening = false → c.wellFormed = true →
    (c.isFrame = true ∨ ∃ n, c = .partialFrame n) →
    exec c s = .next { s with mgmt := { s.mgmt with listening := true } }

/-- The values after reset that the manual's tables give (R49, R66, R84, R115, R132, R153, R165, R167), and with them every
invariant of the statements below. That State.reset is the moment right after the release is the model's reading
(notes/assumptions/1.md). -/
def Obligations.ResetValuesOfTheManual : Prop :=
  ((∀ g : GroupId, State.reset.group g =
    { enabled := false, trigger := .manual, slotOffset := 0, pendingOffset := none, outOfRange := false, mode := .merge
      policy := .reject, entryLimit := 16, holdLimit := 0, drainBudget := 0, logCommits := false, sequence := 0
      lastCommit := none, firstFault := none, openList := [], drainList := []
      counts := ⟨0, 0, 0, 0, 0, 0, 0, 0, 0, 0⟩ }) ∧
  (∀ w : WindowId, State.reset.window w = ⟨false, 0, 0, 3, .pass, none, 0⟩) ∧
  (∀ i : PoolIndex, State.reset.entry i = none) ∧
  (∀ c : ChannelId, State.reset.channel c =
    ⟨.off, .write, 0, false, false, Vector.replicate 8 0, Vector.replicate 8 0, false, 0, 0, 0, 0, 0⟩) ∧
  (∀ p : Port, State.reset.port p = ⟨[], [], none, ⟨0, 0, 0, 0, 0, 0, 0, 0, 0, 0⟩⟩) ∧
  State.reset.arb = ⟨.rotate, .port .a, false, [], 0⟩ ∧ State.reset.drain = ⟨[], [], false⟩ ∧
  State.reset.holds = [] ∧ State.reset.op = .init ∧
  State.reset.tb.running = false ∧ State.reset.tb.counter = 0 ∧ State.reset.tb.cycle = 0 ∧
  State.reset.tb.period = 1000 ∧ State.reset.tb.pendingPeriod = none ∧ State.reset.tb.prescale = 0 ∧
  State.reset.tb.pendingPrescale = none ∧ State.reset.tb.syncEnable = false ∧ State.reset.tb.refFreq = 50 ∧
  State.reset.tb.truncated = 0 ∧ State.reset.tb.usClock = 0 ∧
  State.reset.cap.queue = [] ∧ State.reset.cap.lost = 0 ∧ State.reset.cap.threshold = 1 ∧
  State.reset.ev = ⟨0, 0, false⟩ ∧ State.reset.mgmt.frameErrors = 0) ∧
  State.reset.irqAgrees ∧ State.reset.captureAgrees ∧ State.reset.channelsAgree ∧ State.reset.timebaseAgrees ∧
    State.reset.portsOrdered ∧ State.reset.headsAgree ∧ State.reset.portA.balanced ∧ State.reset.portB.balanced ∧
    (∀ g : GroupId, (State.reset.group g).balanced) ∧ State.reset.openWithinLimit ∧ State.reset.drainLinesAgree ∧
    State.reset.windowsAgree ∧ State.reset.stagedDataAgree

/-- US_CLOCK_ADVANCE counts one microsecond, modulo 2^32; the microsecond that begins takes its length from the setting, a
field of the model (notes/assumptions/7.md), and nothing else changes (R118). INIT_COMPLETE moves the bridge from INIT to
BYPASS once the µs clock reads 20 (R94, R181), and otherwise changes nothing (notes/assumptions/3.md). -/
def Obligations.MicrosecondsCountAndEndInit : Prop :=
  ∀ s : State, s.resetLow = false →
    exec .usClockAdvance s = .next { s with tb := { s.tb with
      usClock := s.tb.usClock + 1
      usLength := s.tb.refFreq } } ∧
    (s.op = .init → 20 ≤ s.tb.usClock.toNat → exec .initComplete s = .next { s with op := .bypass }) ∧
    (s.op ≠ .init ∨ s.tb.usClock.toNat < 20 → exec .initComplete s = .next s)

/-- INIT ends exactly when the µs clock first reads 20 (R94, R181): in INIT, where the reference frequency and the length of
the present microsecond stand at 50, each REFCLK period brings the count of periods, 50 to a microsecond, one further, and
the bridge is in BYPASS exactly when the clock then reads 20. From 0 that is 1000 periods. A period is the model's step on an
empty queue, and the divider is a field of the model (notes/assumptions/2.md, 7.md). -/
def Obligations.InitEndsAtTwentyMicroseconds : Prop :=
  ∀ s : State, s.pending = [] → s.resetLow = false → s.op = .init → s.tb.usLength = 50 → s.tb.refFreq = 50 →
    s.tb.usDivider.toNat < 50 → s.tb.usClock.toNat < 20 →
    ∃ t, step s = .next t ∧
      50 * t.tb.usClock.toNat + t.tb.usDivider.toNat = 50 * s.tb.usClock.toNat + s.tb.usDivider.toNat + 1 ∧
      t.tb.usDivider.toNat < 50 ∧ t.tb.usLength = 50 ∧ t.tb.refFreq = 50 ∧
      t.op = if t.tb.usClock.toNat = 20 then .bypass else .init

/-! ## The management port -/

/-- A command that is refused changes no state in any block: only its own result is formed. Its result data is zero in
the command's full length, but for ENABLE_WINDOW answered BAD_ARGUMENT for an overlap and DISABLE_BRIDGE answered BUSY
(R168). What ENABLE_WINDOW answers to a number above 7 is left to EnableWindowChecksOverlap. The full length of a GET_SETTING
of an item that is none is 0, the model's reading (notes/assumptions/18.md). -/
def Obligations.RefusedCommandChangesNothing : Prop :=
  (∀ (c : Instr) (s t : State) (r : FrameResult), s.takesFrames → c.isFrame = true → exec c s = .next t →
    t.mgmt.result = some r → r.code ≠ .accepted → t = { s with mgmt := { s.mgmt with result := some r } }) ∧
  ∀ (c : Instr) (s t : State) (r : FrameResult), s.takesFrames → c.isFrame = true → exec c s = .next t →
    t.mgmt.result = some r → r.code ≠ .accepted →
    (∀ w, c = .enableWindow w → r.code ≠ .badArgument) → (c = .disableBridge → r.code ≠ .busy) →
    r.data = List.replicate c.dataLength 0

/-- In INIT only READ_IDENTITY and READ_STATUS are judged (R168): of the other commands, COMMIT_NOW, ABORT_GROUP and REARM
may first find a bad argument, a byte that names no command is answered UNKNOWN_COMMAND (the model's reading of the order,
notes/assumptions/19.md), and every other one is answered BAD_STATE. -/
def Obligations.InitAnswersBadState : Prop :=
  ∀ (c : Instr) (s : State), s.takesFrames → s.op = .init → c.isFrame = true → c.wellFormed = true →
    c ≠ .readIdentity → (∀ b, c ≠ .readStatus b) →
    ∃ (t : State) (r : FrameResult), exec c s = .next t ∧
      t = { s with mgmt := { s.mgmt with result := some r } } ∧
      match c with
      | .unknownCommand _ => r.code = .unknownCommand
      | .commitNow b => r.code = if b = 0 ∨ 16 ≤ b.toNat then .badArgument else .badState
      | .abortGroup b => r.code = if 4 ≤ b.toNat then .badArgument else .badState
      | .rearm b => r.code = if b = 0 ∨ 16 ≤ b.toNat then .badArgument else .badState
      | _ => r.code = .badState

/-- READ_IDENTITY is accepted in every operating state, returns the five fixed bytes and changes nothing (R179). -/
def Obligations.IdentityIsFixed : Prop :=
  ∀ s : State, s.takesFrames →
    exec .readIdentity s = .next { s with mgmt := { s.mgmt with
      result := some ⟨.accepted, [0x41#8, 0x0A#8, 0x40#8, 0x72#8, 0x01#8]⟩ } }

/-- A frame whose CS_N rises before evaluation is counted, up to 65535, and changes nothing else; one without a rising edge
of SCK has no effect (R167). That no result stands after it is the model's own field (notes/assumptions/20.md). A byte that
names no command is answered UNKNOWN_COMMAND, without data or effect (R166); that it is so in INIT too is the model's reading
of the order of judgement (notes/assumptions/19.md). A PUT_SETTING of an item that is none is answered BAD_STATE in INIT and
BAD_ARGUMENT otherwise (R172). -/
def Obligations.FramesWithoutACommand : Prop :=
  ∀ s : State, s.takesFrames →
    exec (.partialFrame 0) s = .next s ∧
    (∀ n, 0 < n → exec (.partialFrame n) s = .next { s with mgmt := { s.mgmt with
      frameErrors := if s.mgmt.frameErrors.toNat = 65535 then 65535 else s.mgmt.frameErrors + 1
      result := none } }) ∧
    (∀ b : Byte, b = 0 ∨ 0x15 ≤ b.toNat → exec (.unknownCommand b) s =
      .next { s with mgmt := { s.mgmt with result := some ⟨.unknownCommand, []⟩ } }) ∧
    ∀ item index : Byte, settingValueBytes item = none → exec (.putSettingUnknownItem item index) s =
      .next { s with mgmt := { s.mgmt with
        result := some ⟨if s.op = .init then .badState else .badArgument, []⟩ } }

/-- The inspection commands complete and change nothing but their own result (R26, R87, R171, R173): event status in its
layout (R163), the period in force for GET_SETTING, and for READ_ENTRY the entry's fields in the layout of R175, its state as
STAGED 1, QUEUED 2 or WRITING 3 and its place in its group's list included, a FREE entry as 22 zero bytes. A refused GET_SETTING of an item that is none has no data
(notes/assumptions/18.md). -/
def Obligations.InspectionShowsAndChangesNothing : Prop :=
  [EntryState.staged, .queued, .writing].map (·.code) = [1, 2, 3] ∧
  (∀ s : State, s.takesFrames →
    exec (.readStatus 9) s = .next (s.reply .accepted (bytesLE 3 s.ev.causes ++ bytesLE 3 s.ev.enables ++
      bytesLE 3 (s.ev.causes &&& s.ev.enables) ++ [if s.ev.irq then 1 else 0])) ∧
    (s.op ≠ .init → exec (.getSetting 3 0) s =
      .next (s.reply .accepted [s.tb.period.setWidth 8, (s.tb.period >>> 8).setWidth 8])) ∧
    (∀ b : Byte, ∃ r, exec (.readStatus b) s = .next { s with mgmt := { s.mgmt with result := some r } } ∧
      (r.code = .accepted ↔ b.toNat ≤ 9)) ∧
    (s.op ≠ .init → ∀ i : Byte, ∃ r, exec (.readEntry i) s = .next { s with mgmt := { s.mgmt with result := some r } } ∧
      r.data.length = 22 ∧ (r.code = .accepted ↔ i.toNat < 64)) ∧
    (s.op ≠ .init → ∀ w : Byte, ∃ r, exec (.readWindow w) s = .next { s with mgmt := { s.mgmt with result := some r } } ∧
      r.data.length = 20 ∧ (r.code = .accepted ↔ w.toNat < 8)) ∧
    (s.op ≠ .init → ∀ item index : Byte, ∃ r,
      exec (.getSetting item index) s = .next { s with mgmt := { s.mgmt with result := some r } } ∧
      r.data.length = (settingValueBytes item).getD 0 ∧
      (r.code = .accepted ↔
        (1 ≤ item.toNat ∧ item.toNat ≤ 6 ∧ index = 0) ∨
        ((16 ≤ item.toNat ∧ item.toNat ≤ 24 ∨ 32 ≤ item.toNat ∧ item.toNat ≤ 38) ∧ index.toNat < 4)))) ∧
  ∀ (s : State) (i : PoolIndex), s.takesFrames → s.op ≠ .init →
    ∃ d : List Byte, exec (.readEntry (BitVec.ofNat 8 i.val)) s =
        .next { s with mgmt := { s.mgmt with result := some ⟨.accepted, d⟩ } } ∧
      (s.entry i = none → d = List.replicate 22 0) ∧
      ∀ e, s.entry i = some e → d.length = 22 ∧
        d[0]? = some e.state.code ∧
        (∀ k < 5, d[1 + k]? = some (BitVec.ofNat 8 (e.word.toNat * 8 / 256 ^ k))) ∧
        d[6]? = some e.mask ∧
        (∀ k : Fin 8, d[7 + k.val]? = some (if e.mask.getLsbD k then e.data[k] else 0)) ∧
        d[15]? = some (BitVec.ofNat 8 e.group.val) ∧
        (e.gen = .collecting → d[16]? = some 0 ∧ d[17]? = some 0 ∧ d[18]? = some 0) ∧
        (∀ n : BitVec 16, e.gen = .draining n → d[16]? = some 1 ∧ d[17]? = some (n.setWidth 8) ∧
          d[18]? = some ((n >>> 8).setWidth 8)) ∧
        d[19]? = some (e.contributors.setWidth 8) ∧ d[20]? = some e.count ∧
        ∀ pre post : List PoolIndex, i ∉ pre →
          (if e.state = .staged then (s.group e.group).openList else (s.group e.group).drainList) = pre ++ i :: post →
          d[21]? = some (BitVec.ofNat 8 pre.length)

/-- A setting written and accepted is the value GET_SETTING then returns, byte for byte, for every item but a timebase
prescale, period or slot offset written while RUNNING, which is pending (R171, R172). -/
def Obligations.AcceptedSettingReadsBack : Prop :=
  ∀ (c : Instr) (s t : State) (item index : Byte) (value : List Byte),
    s.takesFrames → c.wellFormed = true → encodeFrame c = some (0x02#8 :: item :: index :: value) →
    exec c s = .next t → t.mgmt.result = some ⟨.accepted, []⟩ →
    (s.tb.running = true → item ≠ 2 ∧ item ≠ 3 ∧ item ≠ 18) →
    exec (.getSetting item index) t = .next { t with mgmt := { t.mgmt with result := some ⟨.accepted, value⟩ } }

/-- READ_WINDOW and the reports of bridge, ports, groups, timebase and capture unit (R45, R67, R99, R116, R132, R151, R173,
R174): every item of the status tables, in order, as the state has it. Choices are numbered in the order of their chapters
(R169). The codes of COMMIT_BUSY and of a head without a window, one classified in INIT or BYPASS among them, and the one
presence byte of an item of several fields, are the model's readings (notes/assumptions/16.md, 17.md); that a hold whose limit
has run out, its expiry not yet taken, shows 0 µs remaining is the model's choice (notes/assumptions/22.md), and so is that one
byte is both the number outstanding on port M and the count of the owners' list (notes/assumptions/34.md). -/
def Obligations.ReportsShowTheState : Prop :=
  ([OperatingState.init, .bypass, .active].map (·.code) = [0, 1, 2] ∧
    [Phase.waiting, .issuing, .closing].map (·.code) = [0, 1, 2] ∧
    [Requester.port .a, .port .b, .drain].map (·.code) = [0, 1, 2] ∧
    [GrantPolicy.rotate, .portsFirst, .drainFirst].map (·.code) = [0, 1, 2] ∧
    [TriggerSource.timer, .external, .manual].map (·.code) = [0, 1, 2] ∧
    [GroupMode.merge, .sequence].map (·.code) = [0, 1] ∧ [FullPolicy.hold, .reject].map (·.code) = [0, 1] ∧
    [ErrorReason.rejectedFull, .holdTimeout, .downstreamError, .discardedByReset].map (·.code) = [0, 1, 2, 3] ∧
    [ChannelState.off, .armed, .gated].map (·.code) = [0, 1, 2] ∧
    [Direction.read, .write, .both].map (·.code) = [0, 1, 2] ∧ [ReadView.committed, .pending].map (·.code) = [0, 1]) ∧
  (∀ s : State, s.takesFrames → ∃ enabled staged : Byte,
    (∀ w : WindowId, enabled.getLsbD w.val = (s.window w).enabled ∧
      staged.getLsbD w.val = ((s.window w).enabled && decide ((s.window w).cls ≠ .pass))) ∧
    exec (.readStatus 0) s = .next (s.reply .accepted (
      [s.op.code, enabled, staged] ++ numberBytes 1 ((List.finRange 8).map fun w => (s.window w).passage).sum ++
      numberBytes 1 s.drain.queue.length ++
      (s.drain.queue.flatMap fun d =>
        let gone := (s.tb.usClock - d.moment).toNat
        numberBytes 1 d.group.val ++ numberBytes 2 d.sequence.toNat ++ [d.phase.code] ++
          numberBytes 1 (s.group d.group).drainList.length ++ numberBytes 1 d.outstanding ++ [flagByte d.late] ++
          presentBytes 2 (if d.budget = 0 ∨ d.budget.toNat ≤ gone ∨ d.late = true then none
            else some (numberBytes 2 (d.budget.toNat - gone)))) ++
      numberBytes 1 s.drain.leftovers.length ++ [flagByte (!s.drain.commitBusy), flagByte s.arb.escalated] ++
      numberBytes 1 s.arb.outstanding.length ++
      (s.arb.outstanding.map fun o => match o.owner with
        | .port .a _ _ => (0 : Byte)
        | .port .b _ _ => 1
        | .drain _ _ => 2) ++
      [s.arb.pointer.code, s.arb.policy.code] ++ numberBytes 2 s.mgmt.frameErrors.toNat))) ∧
  (∀ (s : State) (p : Port), s.takesFrames →
    exec (.readStatus (match p with | .a => 1 | .b => 2)) s = .next (s.reply .accepted (
      numberBytes 1 (s.port p).queue.length ++ numberBytes 1 (s.port p).queue.length ++
      ((s.port p).queue.flatMap fun q => [match q.request.kind with | .read => (0 : Byte) | .write => 1] ++
        numberBytes 1 q.request.tag.toNat ++ numberBytes 5 (8 * q.request.word.toNat) ++
        [match q.progress with
          | .behind => (0 : Byte)
          | .head _ _ => 1
          | .onM _ => 2
          | .answered _ => 3]) ++
      (match s.head p with
        | some ⟨_, .head cls place⟩ =>
          [1, match cls.window, cls.route with
            | none, _ => (2 : Byte)
            | some _, .pass => 0
            | some _, .staged _ _ => 1] ++ presentBytes 1 (cls.window.map fun w => numberBytes 1 w.val) ++
          [match place with
            | .waiting => (0 : Byte)
            | .passage _ => 1
            | .held => 2]
        | _ => [0, 0, 0, 0, 0]) ++
      presentBytes 8 ((s.holds.find? fun h => decide (h.port = p)).map fun h =>
        let gone := (s.tb.usClock - h.since).toNat
        numberBytes 1 h.group.val ++ numberBytes 4 gone ++
          presentBytes 2 (if h.limit = 0 then none else some (numberBytes 2 (h.limit.toNat - gone)))) ++
      presentBytes 15 ((s.port p).lastError.map fun e =>
        [e.reason.code, match e.kind with | .read => (0 : Byte) | .write => 1] ++ numberBytes 5 (8 * e.word.toNat) ++
          numberBytes 1 e.tag.toNat ++ stampBytes e.stamp) ++
      (let c := (s.port p).counts
       [c.requests, c.passReads, c.passWrites, c.stagedPlaced, c.merged, c.forwarded, c.errRejected, c.errTimeout,
        c.errDownstream, c.errDiscarded].flatMap fun n => numberBytes 4 n.toNat)))) ∧
  (∀ (s : State) (g : GroupId), s.takesFrames → s.listsAgree →
    let x := s.group g
    exec (.readStatus (BitVec.ofNat 8 (3 + g.val))) s = .next (s.reply .accepted (
      [if x.drainList = [] then if x.openList = [] then if x.enabled = true then 1 else 0 else 2
        else if x.openList = [] then 3 else 4] ++
      numberBytes 2 x.sequence.toNat ++
      presentBytes 2 (if x.drainList = [] then none else some (numberBytes 2 x.sequence.toNat)) ++
      numberBytes 1 x.openList.length ++ numberBytes 1 x.drainList.length ++
      presentBytes 7 (x.lastCommit.map stampBytes) ++
      presentBytes 5 (x.firstFault.map fun w => numberBytes 5 (8 * w.toNat)) ++ numberBytes 2 x.slotOffset.toNat ++
      presentBytes 2 (x.pendingOffset.map fun v => numberBytes 2 v.toNat) ++
      [flagByte x.outOfRange, x.trigger.code, x.mode.code, x.policy.code, x.entryLimit] ++
      numberBytes 2 x.holdLimit.toNat ++ numberBytes 2 x.drainBudget.toNat ++ [flagByte x.logCommits] ++
      ([x.counts.allocated, x.counts.merged, x.counts.drained, x.counts.failed, x.counts.discarded, x.counts.rejections,
        x.counts.holdTimeouts, x.counts.missedSlots, x.counts.lateDrains, x.counts.commitsTaken].flatMap fun n =>
          numberBytes 4 n.toNat)))) ∧
  (∀ s : State, s.takesFrames →
    exec (.readStatus 7) s = .next (s.reply .accepted (
      [flagByte s.tb.running] ++ numberBytes 2 s.tb.counter.toNat ++ numberBytes 4 s.tb.cycle.toNat ++
      numberBytes 2 s.tb.period.toNat ++ presentBytes 2 (s.tb.pendingPeriod.map fun v => numberBytes 2 v.toNat) ++
      [s.tb.prescale] ++ presentBytes 1 (s.tb.pendingPrescale.map fun v => [v]) ++
      [flagByte s.tb.syncEnable, s.tb.refFreq] ++ numberBytes 4 s.tb.truncated.toNat ++
      numberBytes 4 s.tb.usClock.toNat)) ∧
    exec (.readStatus 8) s = .next (s.reply .accepted (
      numberBytes 1 s.cap.queue.length ++ [s.cap.threshold, s.cap.lost] ++
      presentBytes 1 (s.cap.queue.head?.map fun r => match r.record with
        | .access _ _ _ _ _ _ _ _ => [(1 : Byte)]
        | .commit _ _ _ _ _ _ => [2]) ++
      ([0, 1, 2, 3].flatMap fun c : ChannelId =>
        let x := s.channel c
        [x.state.code, x.prescaleCount] ++ numberBytes 2 x.skipCount.toNat ++ numberBytes 4 x.hits.toNat ++
          numberBytes 4 x.qualifying.toNat ++ numberBytes 4 x.produced.toNat ++
          [flagByte (decide (x.state ≠ .off)), x.direction.code, x.prescale, flagByte x.gate, flagByte x.rearmAtWrap] ++
          x.matchValue.toList ++ x.matchMask.toList ++ [flagByte x.recordData])))) ∧
  ∀ (s : State) (w : WindowId), s.takesFrames → s.op ≠ .init →
    exec (.readWindow (BitVec.ofNat 8 w.val)) s = .next (s.reply .accepted (
      [flagByte (s.window w).enabled] ++ numberBytes 5 (s.window w).base.toNat ++
      numberBytes 5 (s.window w).limit.toNat ++ numberBytes 1 (s.window w).ports.toNat ++
      (match (s.window w).cls with
        | .pass => [0, 0, 0, 0, 0]
        | .staged g view => [1, 1, BitVec.ofNat 8 g.val, 1, view.code]) ++
      presentBytes 1 ((s.window w).channel.map fun c => numberBytes 1 c.val) ++
      numberBytes 1 (s.window w).passage))

/-- The frame that spells a command is decoded to it, whatever bytes follow the last argument (R166, R172), and a frame cut
short before that is a partial frame (R167). At the pins (R166): the bits of the frame, clocked in most significant first
from the falling to the rising edge of CS_N, bring exactly that command to the queue, whatever bits follow; cut short at any
bit, the partial frame with its count of rising edges. SDO is not driven while CS_N is high, and carries zero through command
and argument bytes and then, once the result is formed, the result code and the result data, most significant bit first, and
zero after them. The result codes are 0 to 4 in the order of their table (R168). The pins stand beside the rows
(notes/assumptions/10.md). -/
def Obligations.FramesDecodeToTheirCommand : Prop :=
  [ResultCode.accepted, .busy, .badArgument, .badState, .unknownCommand].map (·.code) = [0, 1, 2, 3, 4] ∧
  (∀ (c : Instr) (bytes after : List Byte) (n : Nat), c.wellFormed = true → encodeFrame c = some bytes →
    frameRow (bytes ++ after) n = c) ∧
  (∀ (c : Instr) (bytes : List Byte) (k n : Nat), c.wellFormed = true → encodeFrame c = some bytes → k < bytes.length →
    frameRow (bytes.take k) n = .partialFrame n) ∧
  ∀ (s : State) (c : Instr) (bytes : List Byte), s.resetLow = false → s.mgmt.pins.csLow = false → c.wellFormed = true →
    encodeFrame c = some bytes →
    let bits := bytes.flatMap byteBits
    s.sdo = none ∧
    (∀ after : List Bool, ∃ x : FramePins, x.csLow = false ∧
      s.pinEdges (.csFall :: clockBits (bits ++ after) ++ [.csRise]) =
        { s with mgmt := { s.mgmt with pins := x }, pending := s.pending ++ [c] }) ∧
    (∀ k < bits.length, ∃ x : FramePins, x.csLow = false ∧
      s.pinEdges (.csFall :: clockBits (bits.take k) ++ [.csRise]) =
        { s with mgmt := { s.mgmt with pins := x }, pending := s.pending ++ [.partialFrame k] }) ∧
    (∀ k < bits.length, (s.pinEdges (.csFall :: clockBits (bits.take k))).sdo = some false) ∧
    ∀ (after : List Bool) (r : FrameResult),
      let t := s.pinEdges (.csFall :: clockBits (bits ++ after))
      ({ t with mgmt := { t.mgmt with result := some r } } : State).sdo =
        some (((r.code.code :: r.data).flatMap byteBits).getD after.length false)

/-! ## Settings -/

/-- A PUT_SETTING of a known item outside INIT whose index or value is outside the range of the settings table is answered
BAD_ARGUMENT with nothing changed; every other one is handed to its owner, which accepts it or answers BUSY or BAD_STATE
(R172). In INIT it is BAD_STATE before any argument check (R168). -/
def Obligations.SettingsOutOfRangeAreRefused : Prop :=
  ∀ (c : Instr) (s : State) (item index : Byte) (value : List Byte), s.takesFrames → c.wellFormed = true →
    encodeFrame c = some (0x02#8 :: item :: index :: value) → settingValueBytes item ≠ none →
    (s.op = .init → exec c s = .next { s with mgmt := { s.mgmt with result := some ⟨.badState, []⟩ } }) ∧
    (s.op ≠ .init → ¬ settingInRange item index value →
      exec c s = .next { s with mgmt := { s.mgmt with result := some ⟨.badArgument, []⟩ } }) ∧
    (s.op ≠ .init → settingInRange item index value → ∃ (t : State) (code : ResultCode), exec c s = .next t ∧
      t.mgmt.result = some ⟨code, []⟩ ∧ (code = .accepted ∨ code = .busy ∨ code = .badState))

/-- The global items, written with index 0 and a value in range outside INIT, are accepted and change that setting alone
(R64, R118, R128); the capture threshold re-evaluates CAPTURE_READY at once (R149). -/
def Obligations.GlobalSettingsAreWritten : Prop :=
  ∀ (s : State) (v : Byte), s.takesFrames → s.op ≠ .init →
    (10 ≤ v.toNat → v.toNat ≤ 200 → exec (.putSettingReferenceFrequency 0 v) s =
      .next ({ s with tb := { s.tb with refFreq := v } }.reply .accepted [])) ∧
    (v.toNat ≤ 1 → exec (.putSettingSyncEnable 0 v) s =
      .next ({ s with tb := { s.tb with syncEnable := decide (v = 1) } }.reply .accepted [])) ∧
    (∀ p : GrantPolicy, p.code = v → exec (.putSettingGrantPolicy 0 v) s =
      .next ({ s with arb := { s.arb with policy := p } }.reply .accepted [])) ∧
    (1 ≤ v.toNat → v.toNat ≤ 32 → ∃ t, exec (.putSettingCaptureThreshold 0 v) s = .next t ∧
      t = { s with cap := { s.cap with threshold := v }, ev := t.ev, mgmt := t.mgmt } ∧
      t.mgmt.result = some ⟨.accepted, []⟩ ∧ t.ev.enables = s.ev.enables ∧
      ∀ i : Fin 19, t.ev.causes.getLsbD i.val =
        if i.val = 18 then decide (v.toNat ≤ s.cap.queue.length) else s.ev.causes.getLsbD i.val)

/-- Period, timebase prescale and slot offset become pending while RUNNING and are in force at once while STOPPED, removing
a pending value (R31, R125, R126). A period or an offset written while STOPPED is an apply: every group's range is judged,
and SLOT_RANGE set when one is out of range (R127). -/
def Obligations.TimebaseSettingsPendOrApply : Prop :=
  ∀ s : State, s.takesFrames → s.op ≠ .init →
    (∀ v : Byte, exec (.putSettingTimebasePrescale 0 v) s = .next ({ s with tb :=
      if s.tb.running = true then { s.tb with pendingPrescale := some v }
      else { s.tb with prescale := v, pendingPrescale := none } }.reply .accepted [])) ∧
    (s.tb.running = true → ∀ v : BitVec 16,
      (2 ≤ v.toNat → exec (.putSettingPeriod 0 v) s =
        .next ({ s with tb := { s.tb with pendingPeriod := some v } }.reply .accepted [])) ∧
      ∀ g : GroupId, exec (.putSettingSlotOffset (BitVec.ofNat 8 g.val) v) s =
        .next ((s.withGroup g { s.group g with pendingOffset := some v }).reply .accepted [])) ∧
    (s.tb.running = false → ∀ v : BitVec 16,
      (2 ≤ v.toNat → ∃ t, exec (.putSettingPeriod 0 v) s = .next t ∧
        t = { s with tb := { s.tb with period := v, pendingPeriod := none }
                     groups := t.groups, ev := t.ev, mgmt := t.mgmt } ∧ t.mgmt.result = some ⟨.accepted, []⟩ ∧
        (∀ g : GroupId, t.group g = { s.group g with outOfRange := decide (v.toNat ≤ (s.group g).slotOffset.toNat) }) ∧
        t.ev.causes = (if (List.finRange 4).any fun g => decide (v.toNat ≤ (s.group g).slotOffset.toNat)
          then s.ev.causes ||| BitVec.twoPow 19 15 else s.ev.causes)) ∧
      ∀ g : GroupId, ∃ t, exec (.putSettingSlotOffset (BitVec.ofNat 8 g.val) v) s = .next t ∧
        t = { s with groups := t.groups, ev := t.ev, mgmt := t.mgmt } ∧ t.mgmt.result = some ⟨.accepted, []⟩ ∧
        ∀ h : GroupId, t.group h =
          let written := if h = g then { s.group h with slotOffset := v, pendingOffset := none } else s.group h
          { written with outOfRange := decide (s.tb.period.toNat ≤ written.slotOffset.toNat) }) ∧
    (s.tb.running = false → ∀ (g : GroupId) (v : BitVec 16) (t : State),
      exec (.putSettingSlotOffset (BitVec.ofNat 8 g.val) v) s = .next t →
      t.ev.causes = (if (List.finRange 4).any fun h => (t.group h).outOfRange
        then s.ev.causes ||| BitVec.twoPow 19 15 else s.ev.causes))

/-- Trigger source, hold limit, drain budget and log commits are accepted in every group state and change that setting
alone (R30). Mode, full policy and entry limit change while the group is IDLE or OFF, and are answered BUSY with nothing
changed otherwise (R29). A group is turned on at any time, and off only while no enabled window names it, with BAD_STATE
otherwise; writing the present value changes nothing (R28). -/
def Obligations.GroupSettingsAreWritten : Prop :=
  (∀ (s : State) (g : GroupId), s.takesFrames → s.op ≠ .init →
    (∀ (x : TriggerSource), exec (.putSettingTriggerSource (BitVec.ofNat 8 g.val) x.code) s =
      .next ((s.withGroup g { s.group g with trigger := x }).reply .accepted [])) ∧
    (∀ v : BitVec 16, v.toNat ≤ 4095 → exec (.putSettingHoldLimit (BitVec.ofNat 8 g.val) v) s =
      .next ((s.withGroup g { s.group g with holdLimit := v.setWidth 12 }).reply .accepted [])) ∧
    (∀ v : BitVec 16, v.toNat ≤ 4095 → exec (.putSettingDrainBudget (BitVec.ofNat 8 g.val) v) s =
      .next ((s.withGroup g { s.group g with drainBudget := v.setWidth 12 }).reply .accepted [])) ∧
    ∀ v : Byte, v.toNat ≤ 1 → exec (.putSettingLogCommits (BitVec.ofNat 8 g.val) v) s =
      .next ((s.withGroup g { s.group g with logCommits := decide (v = 1) }).reply .accepted [])) ∧
  (∀ (s : State) (g : GroupId), s.takesFrames → s.op ≠ .init →
    let quiet := (s.group g).openList = [] ∧ (s.group g).drainList = []
    let busy := { s with mgmt := { s.mgmt with result := some ⟨.busy, []⟩ } }
    (∀ (x : GroupMode), exec (.putSettingMode (BitVec.ofNat 8 g.val) x.code) s =
      .next (if quiet then (s.withGroup g { s.group g with mode := x }).reply .accepted [] else busy)) ∧
    (∀ (x : FullPolicy), exec (.putSettingFullPolicy (BitVec.ofNat 8 g.val) x.code) s =
      .next (if quiet then (s.withGroup g { s.group g with policy := x }).reply .accepted [] else busy)) ∧
    ∀ v : Byte, 1 ≤ v.toNat → v.toNat ≤ 64 → exec (.putSettingEntryLimit (BitVec.ofNat 8 g.val) v) s =
      .next (if quiet then (s.withGroup g { s.group g with entryLimit := v }).reply .accepted [] else busy)) ∧
  ∀ (s : State) (g : GroupId), s.takesFrames → s.op ≠ .init →
    exec (.putSettingGroupEnabled (BitVec.ofNat 8 g.val) 1) s =
      .next ((s.withGroup g { s.group g with enabled := true }).reply .accepted []) ∧
    ((s.group g).enabled = false ∨ (∀ w : WindowId, (s.window w).names g = false) →
      exec (.putSettingGroupEnabled (BitVec.ofNat 8 g.val) 0) s =
        .next ((s.withGroup g { s.group g with enabled := false }).reply .accepted [])) ∧
    ((s.group g).enabled = true → (∃ w : WindowId, (s.window w).names g = true) →
      exec (.putSettingGroupEnabled (BitVec.ofNat 8 g.val) 0) s =
        .next { s with mgmt := { s.mgmt with result := some ⟨.badState, []⟩ } })

/-- Turning a channel on from OFF arms it with its prescale and skip counts at 0; turning it off makes it OFF at once with
both counts kept; writing the present value changes nothing (R135). The other six settings are accepted in every channel
state; a written prescale restarts the prescale count, and turning the gate off opens a GATED channel with its prescale
count at 0 (R136). -/
def Obligations.ChannelSettingsAreWritten : Prop :=
  (∀ (s : State) (c : ChannelId), s.takesFrames → s.op ≠ .init →
    exec (.putSettingChannelEnabled (BitVec.ofNat 8 c.val) 1) s =
      .next ((s.withChannel c (if (s.channel c).state = .off
        then { s.channel c with state := .armed, prescaleCount := 0, skipCount := 0 } else s.channel c)).reply .accepted []) ∧
    exec (.putSettingChannelEnabled (BitVec.ofNat 8 c.val) 0) s =
      .next ((s.withChannel c { s.channel c with state := .off }).reply .accepted [])) ∧
  ∀ (s : State) (c : ChannelId), s.takesFrames → s.op ≠ .init →
    let ch := s.channel c
    (∀ (x : Direction), exec (.putSettingDirection (BitVec.ofNat 8 c.val) x.code) s =
      .next ((s.withChannel c { ch with direction := x }).reply .accepted [])) ∧
    (∀ v : Byte, exec (.putSettingChannelPrescale (BitVec.ofNat 8 c.val) v) s =
      .next ((s.withChannel c { ch with prescale := v, prescaleCount := 0 }).reply .accepted [])) ∧
    exec (.putSettingGate (BitVec.ofNat 8 c.val) 1) s =
      .next ((s.withChannel c { ch with gate := true }).reply .accepted []) ∧
    exec (.putSettingGate (BitVec.ofNat 8 c.val) 0) s =
      .next ((s.withChannel c (if ch.state = .gated
        then { ch with gate := false, state := .armed, prescaleCount := 0 }
        else { ch with gate := false })).reply .accepted []) ∧
    (∀ v : Byte, v.toNat ≤ 1 → exec (.putSettingRearmAtWrap (BitVec.ofNat 8 c.val) v) s =
      .next ((s.withChannel c { ch with rearmAtWrap := decide (v = 1) }).reply .accepted [])) ∧
    (∀ value mask : Lanes, exec (.putSettingMatch (BitVec.ofNat 8 c.val) value mask) s =
      .next ((s.withChannel c { ch with matchValue := value, matchMask := mask }).reply .accepted [])) ∧
    ∀ v : Byte, v.toNat ≤ 1 → exec (.putSettingRecordData (BitVec.ofNat 8 c.val) v) s =
      .next ((s.withChannel c { ch with recordData := decide (v = 1) }).reply .accepted [])

/-! ## Windows and classification -/

/-- What a window covers, the ports it applies to, when two windows overlap and when they share a port; to a port it does
not apply to a window is invisible: a request is classified as if the window were disabled (R85). -/
def Obligations.WindowRangesAndPorts : Prop :=
  (∀ (w : Window) (word : WordIndex), w.contains word = true ↔
    w.base.toNat ≤ 8 * word.toNat ∧ 8 * word.toNat ≤ w.limit.toNat + 4095) ∧
  (∀ (w : Window) (p : Port), w.appliesTo p = w.ports.getLsbD (match p with | .a => 0 | .b => 1)) ∧
  (∀ v w : Window, v.base.toNat ≤ v.limit.toNat → w.base.toNat ≤ w.limit.toNat →
    (v.overlaps w = true ↔ ∃ a : Address, v.base.toNat ≤ a.toNat ∧ a.toNat ≤ v.limit.toNat + 4095 ∧
      w.base.toNat ≤ a.toNat ∧ a.toNat ≤ w.limit.toNat + 4095)) ∧
  (∀ v w : Window, v.sharesPort w = true ↔ ∃ p : Port, v.appliesTo p = true ∧ w.appliesTo p = true) ∧
  ∀ (s : State) (w : WindowId) (p : Port) (word : WordIndex), (s.window w).appliesTo p = false →
    s.classify p word = (s.withWindow w { s.window w with enabled := false }).classify p word

/-- PUT_WINDOW outside INIT: a failed argument check is answered BAD_ARGUMENT; otherwise an enabled window is answered
BAD_STATE; otherwise all the fields but enabled are replaced at once, and only those (R86, R174). -/
def Obligations.PutWindowReplacesTheFields : Prop :=
  ∀ (s : State) (window : Byte) (base limit : BitVec 40) (ps cls g v cp cc : Byte), s.takesFrames → s.op ≠ .init →
    (¬ windowArgumentsOk window base limit ps cls g v cp cc → exec (.putWindow window base limit ps cls g v cp cc) s =
      .next { s with mgmt := { s.mgmt with result := some ⟨.badArgument, []⟩ } }) ∧
    (windowArgumentsOk window base limit ps cls g v cp cc → ∀ w : WindowId, w.val = window.toNat →
      ((s.window w).enabled = true → exec (.putWindow window base limit ps cls g v cp cc) s =
        .next { s with mgmt := { s.mgmt with result := some ⟨.badState, []⟩ } }) ∧
      ((s.window w).enabled = false → ∃ t, exec (.putWindow window base limit ps cls g v cp cc) s = .next t ∧
        t = { s with windows := t.windows, mgmt := { s.mgmt with result := some ⟨.accepted, []⟩ } } ∧
        (∀ x : WindowId, x ≠ w → t.window x = s.window x) ∧
        (t.window w).enabled = false ∧ (t.window w).passage = (s.window w).passage ∧
        (t.window w).base.toNat = base.toNat ∧ (t.window w).limit.toNat = limit.toNat ∧
        (t.window w).ports.toNat = ps.toNat ∧
        (cls = 0 → (t.window w).cls = .pass) ∧
        (cls = 1 → ∃ (group : GroupId) (view : ReadView), group.val = g.toNat ∧ view.code = v ∧
          (t.window w).cls = .staged group view) ∧
        (cp = 0 → (t.window w).channel = none) ∧
        (cp = 1 → ∃ ch : ChannelId, ch.val = cc.toNat ∧ (t.window w).channel = some ch)))

/-- ENABLE_WINDOW of a disabled window outside INIT (R88): an overlap with an enabled window on a shared port is answered
BAD_ARGUMENT with the lowest-numbered such window; otherwise a STAGED window whose group is off is answered BAD_STATE;
otherwise the window becomes enabled. An enabled window is accepted unchanged. -/
def Obligations.EnableWindowChecksOverlap : Prop :=
  (∀ (s : State) (b : Byte), s.takesFrames → s.op ≠ .init → 8 ≤ b.toNat → exec (.enableWindow b) s =
    .next { s with mgmt := { s.mgmt with result := some ⟨.badArgument, [0, 0]⟩ } }) ∧
  ∀ (s : State) (w : WindowId), s.takesFrames → s.op ≠ .init →
    let clash := fun v : WindowId => decide (v ≠ w) && (s.window v).enabled && (s.window v).sharesPort (s.window w) &&
      (s.window v).overlaps (s.window w)
    let answered := fun (code : ResultCode) (data : List Byte) =>
      { s with mgmt := { s.mgmt with result := some ⟨code, data⟩ } }
    ((s.window w).enabled = true → exec (.enableWindow (BitVec.ofNat 8 w.val)) s = .next (answered .accepted [0, 0])) ∧
    ((s.window w).enabled = false →
      (∀ v : WindowId, clash v = true → (∀ x : WindowId, x < v → clash x = false) →
        exec (.enableWindow (BitVec.ofNat 8 w.val)) s = .next (answered .badArgument [1, BitVec.ofNat 8 v.val])) ∧
      ((∀ v : WindowId, clash v = false) →
        ((∃ (g : GroupId) (view : ReadView), (s.window w).cls = .staged g view ∧ (s.group g).enabled = false) →
          exec (.enableWindow (BitVec.ofNat 8 w.val)) s = .next (answered .badState [0, 0])) ∧
        ((∀ (g : GroupId) (view : ReadView), (s.window w).cls = .staged g view → (s.group g).enabled = true) →
          exec (.enableWindow (BitVec.ofNat 8 w.val)) s =
            .next ((s.withWindow w { s.window w with enabled := true }).reply .accepted [0, 0]))))

/-- DISABLE_WINDOW outside INIT (R89): accepted at once for a disabled or a PASS window; a STAGED one is BUSY while its group
has a live entry in its range or it has a write in passage, and is disabled otherwise. -/
def Obligations.DisableWindowWaitsForItsWork : Prop :=
  (∀ (s : State) (b : Byte), s.takesFrames → s.op = .init ∨ 8 ≤ b.toNat → exec (.disableWindow b) s =
    .next { s with mgmt := { s.mgmt with result := some ⟨if s.op = .init then .badState else .badArgument, []⟩ } }) ∧
  ∀ (s : State) (w : WindowId), s.takesFrames → s.op ≠ .init →
    let off := (s.withWindow w { s.window w with enabled := false }).reply .accepted []
    let busy := { s with mgmt := { s.mgmt with result := some ⟨.busy, []⟩ } }
    ((s.window w).enabled = false ∨ (s.window w).cls = .pass →
      exec (.disableWindow (BitVec.ofNat 8 w.val)) s = .next off) ∧
    ∀ (g : GroupId) (view : ReadView), (s.window w).enabled = true → (s.window w).cls = .staged g view →
      ((s.window w).passage ≠ 0 ∨
        (∃ (i : PoolIndex) (e : Entry), s.entry i = some e ∧ e.group = g ∧ (s.window w).contains e.word = true) →
        exec (.disableWindow (BitVec.ofNat 8 w.val)) s = .next busy) ∧
      ((s.window w).passage = 0 →
        (∀ (i : PoolIndex) (e : Entry), s.entry i = some e → e.group = g → (s.window w).contains e.word = false) →
        exec (.disableWindow (BitVec.ofNat 8 w.val)) s = .next off)

/-- Classification (R91): PASS without capture in INIT and BYPASS; in ACTIVE the one enabled window that contains the word
and applies to the port decides class, group, view and channel, and without such a window the request is PASS. -/
def Obligations.ClassificationFollowsTheWindow : Prop :=
  ∀ (s : State) (p : Port) (word : WordIndex),
    (s.op ≠ .active → s.classify p word = ⟨.pass, none, none⟩) ∧
    (s.op = .active →
      (∀ w : WindowId, s.windowsAgree → (s.window w).enabled = true → (s.window w).contains word = true →
        (s.window w).appliesTo p = true →
        s.classify p word = ⟨match (s.window w).cls with
          | .pass => .pass
          | .staged g v => .staged g v, some w, (s.window w).channel⟩) ∧
      ((∀ w : WindowId, ((s.window w).enabled && (s.window w).contains word && (s.window w).appliesTo p) = false) →
        s.classify p word = ⟨.pass, none, none⟩))

/-! ## The upstream ports -/

/-- REQUEST_ACCEPT of a well-formed request while 4 are outstanding, or others wait before it: it waits on the bus, not
accepted and not counted (R101; the bus queue is the model's choice, notes/assumptions/8.md). Behind a head it is appended
at the tail as BEHIND and counted, and is not classified (R101, R102). -/
def Obligations.RequestsWaitOrGoBehindTheHead : Prop :=
  (∀ (s : State) (p : Port) (r : BusRequest), s.resetLow = false → r.wellFormed = true →
    (s.port p).waiting ≠ [] ∨ 4 ≤ (s.port p).queue.length →
    exec (.requestAccept p r) s = .next (s.withPort p { s.port p with waiting := (s.port p).waiting ++ [r] })) ∧
  ∀ (s : State) (p : Port) (r : BusRequest), s.resetLow = false → r.wellFormed = true →
    (s.port p).waiting = [] → (s.port p).queue.length < 4 → (s.head p).isSome = true →
    exec (.requestAccept p r) s = .next (s.withPort p { s.port p with
      queue := (s.port p).queue ++ [⟨r, .behind⟩]
      counts := { (s.port p).counts with requests := (s.port p).counts.requests + 1 } })

/-- REQUEST_ACCEPT behind requests that are all issued or answered: the request becomes the head at its acceptance and is
classified (R102, R103). A pass request and a read not fully covered wait at the arbiter; a staged write is in passage of
its window; a fully covered read is answered at once with the word formed from the entries (R72). Without a capture channel
the capture unit and the causes stay (R113). -/
def Obligations.RequestBecomesTheHead : Prop :=
  ∀ (s : State) (p : Port) (r : BusRequest), s.resetLow = false → r.wellFormed = true →
    (s.port p).waiting = [] → (s.port p).queue.length < 4 →
    (∀ x ∈ (s.port p).queue, x.progress.isUnsettled = false) →
    let cls := s.classify p r.word
    ∃ t, exec (.requestAccept p r) s = .next t ∧
      t = ({ s with windows := t.windows, cap := t.cap, ev := t.ev }.withPort p (t.port p)) ∧
      (t.port p).waiting = [] ∧ (t.port p).lastError = (s.port p).lastError ∧
      (cls.channel = none → t.cap = s.cap ∧ t.ev = s.ev) ∧
      ((r.kind = .read ∨ cls.route = .pass) → t.windows = s.windows) ∧
      (∀ (g : GroupId) (v : ReadView), r.kind = .write → cls.route = .staged g v → ∀ w : WindowId,
        t.window w = if cls.window = some w then { s.window w with passage := (s.window w).passage + 1 }
          else s.window w) ∧
      ∃ (new : Progress) (forwarded : Count),
        (t.port p).queue = (s.port p).queue ++ [⟨r, new⟩] ∧
        (t.port p).counts = { (s.port p).counts with
          requests := (s.port p).counts.requests + 1
          forwarded := (s.port p).counts.forwarded + forwarded } ∧
        match cls.route with
        | .pass => new = .head cls .waiting ∧ forwarded = 0
        | .staged g v =>
          if r.kind = .write then new = .head cls (.passage false) ∧ forwarded = 0
          else if s.fullyCovered g v r.word = true then
            new = .answered ⟨.okay, some (s.forwardedWord g v r.word Lanes.zero)⟩ ∧ forwarded = 1
          else new = .head cls .waiting ∧ forwarded = 0

/-- RESPONSE_TAKEN (R101, R107): the oldest request leaves the queue when its answer is formed; with nothing waiting on the
bus, nothing else changes; otherwise a waiting request is accepted at this moment. Without an answer at the oldest place
nothing changes (notes/assumptions/3.md). -/
def Obligations.ResponseIsTakenInOrder : Prop :=
  ∀ (s : State) (p : Port), s.resetLow = false →
    (∀ (r : BusRequest) (a : Answer) (rest : List QueuedRequest), (s.port p).queue = ⟨r, .answered a⟩ :: rest →
      ((s.port p).waiting = [] →
        exec (.responseTaken p) s = .next (s.withPort p { s.port p with queue := rest })) ∧
      (∀ (x : BusRequest) (more : List BusRequest), (s.port p).waiting = x :: more → rest.length < 4 →
        ∃ t, exec (.responseTaken p) s = .next t ∧ (t.port p).waiting = more ∧
          (t.port p).queue.map (·.request) = rest.map (·.request) ++ [x] ∧
          (t.port p).counts.requests = (s.port p).counts.requests + 1)) ∧
    ((∀ (r : BusRequest) (a : Answer) (rest : List QueuedRequest), (s.port p).queue ≠ ⟨r, .answered a⟩ :: rest) →
      exec (.responseTaken p) s = .next s)

/-- Answers stand in issue order and are formed once (R107): no command but RESPONSE_TAKEN and RESET_N removes a request
from a queue, moves it or alters a formed answer, and RESPONSE_TAKEN removes only the oldest, answered request. -/
def Obligations.AnswersStayInIssueOrder : Prop :=
  ∀ (c : Instr) (s t : State) (p : Port), exec c s = .next t → c ≠ .resetNAssert → c ≠ .resetNRelease →
    (c ≠ .responseTaken p → queueGrows (s.port p).queue (t.port p).queue) ∧
    (c = .responseTaken p → queueGrows (s.port p).queue (t.port p).queue ∨
      ∃ r a rest, (s.port p).queue = ⟨r, .answered a⟩ :: rest ∧ queueGrows rest (t.port p).queue)

/-! ## The staging table -/

/-- STAGED_WRITE_PLACEMENT. It merges (R8) in MERGE mode onto the first entry of the open list with the word: its lanes are
replaced, the mask joined, the count raised up to 255, the port added, and nothing else of the table changes. It allocates
(R4, R9, R10, R13) with no entry of the open list to merge with, the open list below the entry limit and a free entry: the
free entry with the lowest index joins the tail of the open list with the write's fields. Either way the write is answered
OKAY, and the arbiter, the drain engine and the timebase stay. The stored zero in the lanes the write does not carry is the
model's choice (notes/assumptions/21.md). -/
def Obligations.PlacementMergesOrAllocates : Prop :=
  (∀ (s : State) (p : Port) (word : WordIndex) (m : LaneSet) (d : Lanes) (tag : Tag) (cls : Classification) (g : GroupId)
    (v : ReadView) (i : PoolIndex) (e : Entry) (pre post : List PoolIndex), s.resetLow = false →
    queueOrdered (s.port p).queue = true → s.head p = some ⟨.write word m d tag, .head cls (.passage false)⟩ →
    cls.route = .staged g v → (s.group g).mode = .merge → (s.group g).openList = pre ++ i :: post →
    (∀ j ∈ pre, ∀ x, s.entry j = some x → x.word ≠ word) → s.entry i = some e → e.word = word →
    ∃ t, exec (.stagedWritePlacement p) s = .next t ∧
      t.entry i = some { e with
        data := Vector.ofFn fun k => if m.getLsbD k then d[k] else e.data[k]
        mask := e.mask ||| m
        count := if e.count = 255 then 255 else e.count + 1
        contributors := e.contributors ||| p.asSet } ∧
      (∀ j, j ≠ i → t.entry j = s.entry j) ∧
      (∀ h : GroupId, t.group h = if h = g then { s.group h with counts := { (s.group h).counts with
        merged := (s.group h).counts.merged + 1 } } else s.group h) ∧
      queueMoves (.write word m d tag) (.head cls (.passage false)) (.answered ⟨.okay, none⟩)
        (s.port p).queue (t.port p).queue ∧
      (t.port p).counts.stagedPlaced = (s.port p).counts.stagedPlaced + 1 ∧
      (t.port p).counts.merged = (s.port p).counts.merged + 1 ∧
      t.holds = s.holds ∧ t.drain = s.drain ∧ t.arb = s.arb ∧ t.tb = s.tb ∧ t.op = s.op ∧
      ∀ q : Port, q ≠ p → t.port q = s.port q) ∧
  ∀ (s : State) (p : Port) (word : WordIndex) (m : LaneSet) (d : Lanes) (tag : Tag) (cls : Classification) (g : GroupId)
    (v : ReadView) (i : PoolIndex), s.resetLow = false →
    queueOrdered (s.port p).queue = true → s.head p = some ⟨.write word m d tag, .head cls (.passage false)⟩ →
    cls.route = .staged g v →
    ((s.group g).mode = .sequence ∨ ∀ j ∈ (s.group g).openList, ∀ x, s.entry j = some x → x.word ≠ word) →
    (s.group g).openList.length < (s.group g).entryLimit.toNat → s.entry i = none →
    (∀ j : PoolIndex, j < i → (s.entry j).isSome = true) →
    ∃ t, exec (.stagedWritePlacement p) s = .next t ∧
      t.entry i = some {
        word := word, mask := m, data := Vector.ofFn fun k => if m.getLsbD k then d[k] else 0, group := g
        gen := .collecting, state := .staged, contributors := p.asSet, count := 1 } ∧
      (∀ j, j ≠ i → t.entry j = s.entry j) ∧
      (∀ h : GroupId, t.group h = if h = g then { s.group h with
          openList := (s.group h).openList ++ [i]
          counts := { (s.group h).counts with allocated := (s.group h).counts.allocated + 1 } } else s.group h) ∧
      queueMoves (.write word m d tag) (.head cls (.passage false)) (.answered ⟨.okay, none⟩)
        (s.port p).queue (t.port p).queue ∧
      (t.port p).counts.stagedPlaced = (s.port p).counts.stagedPlaced + 1 ∧
      (t.port p).counts.merged = (s.port p).counts.merged ∧
      t.holds = s.holds ∧ t.drain = s.drain ∧ t.arb = s.arb ∧ t.tb = s.tb ∧ t.op = s.op ∧
      ∀ q : Port, q ≠ p → t.port q = s.port q

/-- A staged write that needs an entry it cannot have (R13): under REJECT it is answered ERROR REJECTED_FULL, recorded and
counted, with STAGE_REJECT (R14); under HOLD it stays the head with a hold record, and nothing else changes (R15). One
classified before a RESET_DATAPATH whose placement comes after it is answered ERROR DISCARDED_BY_RESET, recorded and
counted, and the table keeps no trace of it; the answer sets no cause, and only the hit of the next request, which becomes
the head, can change those of the capture unit (R23, R105, R109; the mark of such a head is the model's,
notes/assumptions/12.md). -/
def Obligations.UnplacedWritesAreAnsweredOrHeld : Prop :=
  (∀ (s : State) (p : Port) (word : WordIndex) (m : LaneSet) (d : Lanes) (tag : Tag) (cls : Classification) (g : GroupId)
    (v : ReadView), s.resetLow = false →
    queueOrdered (s.port p).queue = true → s.head p = some ⟨.write word m d tag, .head cls (.passage false)⟩ →
    cls.route = .staged g v →
    ((s.group g).mode = .sequence ∨ ∀ j ∈ (s.group g).openList, ∀ x, s.entry j = some x → x.word ≠ word) →
    ((s.group g).entryLimit.toNat ≤ (s.group g).openList.length ∨ ∀ j : PoolIndex, (s.entry j).isSome = true) →
    ((s.group g).policy = .reject → ∃ t, exec (.stagedWritePlacement p) s = .next t ∧
      t.pool = s.pool ∧ t.holds = s.holds ∧ t.drain = s.drain ∧ t.arb = s.arb ∧ t.tb = s.tb ∧ t.op = s.op ∧
      (∀ h : GroupId, t.group h = if h = g then { s.group h with counts := { (s.group h).counts with
        rejections := (s.group h).counts.rejections + 1 } } else s.group h) ∧
      t.ev.causes.getLsbD 12 = true ∧
      (t.port p).lastError = some ⟨.rejectedFull, .write, word, tag, ⟨s.tb.cycle, s.tb.counter, s.tb.running⟩⟩ ∧
      (t.port p).counts.errRejected = (s.port p).counts.errRejected + 1 ∧
      queueMoves (.write word m d tag) (.head cls (.passage false)) (.answered ⟨.error, none⟩)
        (s.port p).queue (t.port p).queue) ∧
    ((s.group g).policy = .hold → ∃ t, exec (.stagedWritePlacement p) s = .next t ∧
      t = (({ s with holds := s.holds ++ [(⟨p, g, s.tb.usClock, (s.group g).holdLimit⟩ : Hold)] } : State).withPort p (t.port p)) ∧
      t.port p = { s.port p with queue := (t.port p).queue } ∧
      ∃ pre post : List QueuedRequest,
        (s.port p).queue = pre ++ ⟨.write word m d tag, .head cls (.passage false)⟩ :: post ∧
        (t.port p).queue = pre ++ ⟨.write word m d tag, .head cls .held⟩ :: post)) ∧
  ∀ (s : State) (p : Port) (word : WordIndex) (m : LaneSet) (d : Lanes) (tag : Tag) (cls : Classification) (g : GroupId)
    (v : ReadView), s.resetLow = false →
    queueOrdered (s.port p).queue = true → s.head p = some ⟨.write word m d tag, .head cls (.passage true)⟩ →
    cls.route = .staged g v →
    ∃ t, exec (.stagedWritePlacement p) s = .next t ∧
      t.pool = s.pool ∧ t.groups = s.groups ∧ t.holds = s.holds ∧ t.drain = s.drain ∧ t.arb = s.arb ∧ t.tb = s.tb ∧
      (s.op ≠ .active → t.cap = s.cap ∧ t.ev = s.ev) ∧
      (∀ i < 17, t.ev.causes.getLsbD i = s.ev.causes.getLsbD i) ∧ t.ev.enables = s.ev.enables ∧
      (t.port p).lastError = some ⟨.discardedByReset, .write, word, tag, ⟨s.tb.cycle, s.tb.counter, s.tb.running⟩⟩ ∧
      (t.port p).counts.errDiscarded = (s.port p).counts.errDiscarded + 1 ∧
      queueMoves (.write word m d tag) (.head cls (.passage true)) (.answered ⟨.error, none⟩)
        (s.port p).queue (t.port p).queue

/-- Retries of held writes. At a retry point a held write that it concerns is placed afresh (R16, R17, R108). Placed, by
merge or into the lowest free entry, its hold record goes and it is answered OKAY, counted, out of its window's count, and
gives no second hit; refused under HOLD everything stays; refused under REJECT it is answered ERROR REJECTED_FULL, recorded
and counted, with STAGE_REJECT. One it does not concern stays. Of two, the one first refused takes a single free entry,
where pool and lists agree (StagedDataInvariant). Retry points are the commit event of its group, an ABORT_GROUP that frees
entries and the acknowledgement of a drain write: each has its own effect, and then the retries; a COMMIT_NOW answered BUSY
for the group is none, nor is a missed slot. A slot instant, whichever row brings it, and a COMMIT_IN edge take the groups
they reach in ascending number (R34), each commit event with its retries whole before the next. The model's choices: the
parts of one happening stand in its order (notes/assumptions/13.md), and an entry allocated holds zero in the lanes its
write does not carry (notes/assumptions/21.md). When a row brings a slot instant or an edge, and that it changes nothing
otherwise, is as in notes/assumptions/3.md, 6.md, 7.md and 32.md. -/
def Obligations.RetryPointsServeHeldWrites : Prop :=
  (∀ (s : State) (x : Hold) (concerned : Hold → Bool) (word : WordIndex) (m : LaneSet) (d : Lanes) (tag : Tag)
    (cls : Classification), s.holds = [x] → queueOrdered (s.port x.port).queue = true →
    s.head x.port = some ⟨.write word m d tag, .head cls .held⟩ →
    let t := s.retryHolds concerned
    let placed := fun merged : Count =>
      t.holds = [] ∧
      queueMoves (.write word m d tag) (.head cls .held) (.answered ⟨.okay, none⟩)
        (s.port x.port).queue (t.port x.port).queue ∧
      (t.port x.port).counts.stagedPlaced = (s.port x.port).counts.stagedPlaced + 1 ∧
      (t.port x.port).counts.merged = (s.port x.port).counts.merged + merged ∧
      (t.port x.port).lastError = (s.port x.port).lastError ∧
      t.drain = s.drain ∧ t.arb = s.arb ∧ t.tb = s.tb ∧ t.op = s.op ∧ t.mgmt = s.mgmt ∧
      (∀ q : Port, q ≠ x.port → t.port q = s.port q) ∧
      ((∀ q ∈ (s.port x.port).queue, q.progress.isBehind = false) → t.cap = s.cap ∧ t.ev = s.ev ∧
        ∀ w : WindowId, t.window w = if cls.window = some w then { s.window w with passage := (s.window w).passage - 1 }
          else s.window w)
    (concerned x = false → t = s) ∧
    (concerned x = true →
      (∀ (i : PoolIndex) (e : Entry) (pre post : List PoolIndex), (s.group x.group).mode = .merge →
        (s.group x.group).openList = pre ++ i :: post → (∀ j ∈ pre, ∀ y, s.entry j = some y → y.word ≠ word) →
        s.entry i = some e → e.word = word →
        placed 1 ∧ t.entry i = some (e.joined x.port m d) ∧ (∀ j, j ≠ i → t.entry j = s.entry j) ∧
        ∀ h : GroupId, t.group h = if h = x.group then { s.group h with counts := { (s.group h).counts with
          merged := (s.group h).counts.merged + 1 } } else s.group h) ∧
      (∀ i : PoolIndex, s.needsEntry x.group word →
        (s.group x.group).openList.length < (s.group x.group).entryLimit.toNat → s.entry i = none →
        (∀ j : PoolIndex, j < i → (s.entry j).isSome = true) →
        placed 0 ∧ t.entry i = some (Entry.opened x.port x.group word m d) ∧ (∀ j, j ≠ i → t.entry j = s.entry j) ∧
        ∀ h : GroupId, t.group h = if h = x.group then { s.group h with
            openList := (s.group h).openList ++ [i]
            counts := { (s.group h).counts with allocated := (s.group h).counts.allocated + 1 } } else s.group h) ∧
      (s.needsEntry x.group word → s.hasNoRoom x.group →
        ((s.group x.group).policy = .hold → t = s) ∧
        ((s.group x.group).policy = .reject →
          t.holds = [] ∧ t.pool = s.pool ∧ t.drain = s.drain ∧ t.arb = s.arb ∧ t.tb = s.tb ∧ t.op = s.op ∧
          t.mgmt = s.mgmt ∧
          (∀ h : GroupId, t.group h = if h = x.group then { s.group h with counts := { (s.group h).counts with
            rejections := (s.group h).counts.rejections + 1 } } else s.group h) ∧
          t.ev.causes.getLsbD 12 = true ∧
          (t.port x.port).lastError =
            some ⟨.rejectedFull, .write, word, tag, ⟨s.tb.cycle, s.tb.counter, s.tb.running⟩⟩ ∧
          (t.port x.port).counts.errRejected = (s.port x.port).counts.errRejected + 1 ∧
          queueMoves (.write word m d tag) (.head cls .held) (.answered ⟨.error, none⟩)
            (s.port x.port).queue (t.port x.port).queue)))) ∧
  (∀ (s : State) (x y : Hold) (concerned : Hold → Bool) (wx wy : WordIndex) (mx my : LaneSet) (dx dy : Lanes) (tx ty : Tag)
    (cx cy : Classification) (i : PoolIndex), s.holds = [x, y] → s.listsAgree → x.port ≠ y.port → concerned x = true →
    concerned y = true →
    s.head x.port = some ⟨.write wx mx dx tx, .head cx .held⟩ →
    s.head y.port = some ⟨.write wy my dy ty, .head cy .held⟩ →
    s.needsEntry x.group wx → s.needsEntry y.group wy →
    (x.group = y.group → (s.group y.group).mode = .sequence ∨ wx ≠ wy) →
    (s.group x.group).openList.length < (s.group x.group).entryLimit.toNat → (s.group y.group).policy = .hold →
    s.entry i = none → (∀ j, j ≠ i → (s.entry j).isSome = true) →
    let t := s.retryHolds concerned
    t.holds = [y] ∧ t.entry i = some (Entry.opened x.port x.group wx mx dx) ∧ t.port y.port = s.port y.port) ∧
  (∀ (s u : State) (c : Instr) (concerned : Hold → Bool), s.resetLow = false →
    ((∃ g : GroupId, c = .commitNow (BitVec.twoPow 8 g.val) ∧ s.mgmt.listening = true ∧ s.op = .active ∧
        (s.group g).enabled = true ∧ (s.group g).drainList = [] ∧ concerned = fun h => decide (h.group = g)) ∨
      (∃ g : GroupId, c = .abortGroup (BitVec.ofNat 8 g.val) ∧ s.mgmt.listening = true ∧ s.op ≠ .init ∧
        (s.group g).enabled = true ∧ (s.group g).openList ≠ [] ∧ concerned = fun _ => true) ∨
      ∃ (status : Status) (memory : Lanes) (tag : Tag) (g : GroupId) (i : PoolIndex) (q : BusRequest)
        (rest : List Outstanding), c = .memoryResponse status memory tag ∧
        s.arb.outstanding = ⟨.drain g i, q⟩ :: rest ∧ concerned = fun _ => true) →
    exec c { s with holds := [] } = .next u →
    exec c s = .next (({ u with holds := s.holds } : State).retryHolds concerned)) ∧
  (∀ (s : State) (g : GroupId),
    let alone : State := { ({ s with holds := [] } : State).slotAt g with holds := s.holds }
    s.slotAt g = if (s.group g).drainList = [] then alone.retryHolds (fun h => decide (h.group = g)) else alone) ∧
  (∀ (s : State) (c : Instr), s.resetLow = false →
    c ∈ [.counterStep, .naturalWrap, .syncInEdge, .commitInEdge, .startTimebase] →
    ∃ t p : State, exec c s = .next t ∧
      { t with mgmt := s.mgmt } =
        ((List.finRange 4).filter (s.rowReaches c)).foldl (fun (u : State) (g : GroupId) => u.slotAt g) p ∧
      p = { s with tb := p.tb, cap := p.cap, ev := p.ev, groups := p.groups } ∧
      ∀ g : GroupId, p.group g = { s.group g with
        slotOffset := (p.group g).slotOffset
        pendingOffset := (p.group g).pendingOffset
        outOfRange := (p.group g).outOfRange }) ∧
  ∀ (s : State) (g : GroupId), s.takesFrames → s.op = .active → (s.group g).enabled = true → (s.group g).drainList ≠ [] →
    exec (.commitNow (BitVec.twoPow 8 g.val)) s =
      .next { s with mgmt := { s.mgmt with result := some ⟨.accepted, [0, BitVec.twoPow 8 g.val]⟩ } }

/-- HOLD_LIMIT_EXPIRY when the µs clock has advanced by the recorded limit (R18, R119): the hold record removed, the write
answered ERROR HOLD_TIMEOUT and recorded, the port's and the group's counts raised, the cause set; the pool, the lists, the
drain engine and the arbiter stay. A limit of 0 never expires (R15). DRAIN_BUDGET_EXPIRY of a generation whose budget has run
out (R57 to R59): late, counted once, DRAIN_LATE set, the arbiter escalated; nothing else changes. A budget of 0 never runs
out, and a generation is late once. An expiry is due from its limit or budget on (notes/assumptions/11.md), and a row that
comes before that changes nothing (notes/assumptions/3.md). -/
def Obligations.HoldsAndBudgetsExpire : Prop :=
  (∀ (s : State) (p : Port) (h : Hold) (pre post : List Hold) (r : BusRequest) (cls : Classification), s.resetLow = false →
    s.holds = pre ++ h :: post → h.port = p → (∀ x ∈ pre ++ post, x.port ≠ p) →
    queueOrdered (s.port p).queue = true → s.head p = some ⟨r, .head cls .held⟩ →
    (h.limit ≠ 0 → h.limit.toNat ≤ (s.tb.usClock - h.since).toNat → ∃ t, exec (.holdLimitExpiry p) s = .next t ∧
      t.holds = pre ++ post ∧ t.pool = s.pool ∧ t.drain = s.drain ∧ t.arb = s.arb ∧ t.tb = s.tb ∧ t.op = s.op ∧
      (∀ g : GroupId, t.group g = if g = h.group then { s.group g with counts := { (s.group g).counts with
        holdTimeouts := (s.group g).counts.holdTimeouts + 1 } } else s.group g) ∧
      t.ev.causes.getLsbD 13 = true ∧
      (t.port p).lastError =
        some ⟨.holdTimeout, r.kind, r.word, r.tag, ⟨s.tb.cycle, s.tb.counter, s.tb.running⟩⟩ ∧
      (t.port p).counts.errTimeout = (s.port p).counts.errTimeout + 1 ∧
      queueMoves r (.head cls .held) (.answered ⟨.error, none⟩) (s.port p).queue (t.port p).queue) ∧
    (h.limit = 0 ∨ (s.tb.usClock - h.since).toNat < h.limit.toNat → exec (.holdLimitExpiry p) s = .next s)) ∧
  ∀ (s : State) (d : Drain) (pre post : List Drain), s.resetLow = false → s.drain.queue = pre ++ d :: post →
    (∀ x ∈ pre ++ post, x.group ≠ d.group) →
    (d.budget ≠ 0 → d.budget.toNat ≤ (s.tb.usClock - d.moment).toNat → d.late = false →
      ∃ t, exec (.drainBudgetExpiry d.group) s = .next t ∧
        t = { s with
          drain := { s.drain with queue := pre ++ { d with late := true } :: post }
          groups := t.groups, ev := t.ev, arb := { s.arb with escalated := true } } ∧
        (∀ g : GroupId, t.group g = if g = d.group then { s.group g with counts := { (s.group g).counts with
          lateDrains := (s.group g).counts.lateDrains + 1 } } else s.group g) ∧
        t.ev.causes = s.ev.causes ||| BitVec.twoPow 19 (4 + d.group.val) ∧ t.ev.enables = s.ev.enables) ∧
    (d.budget = 0 ∨ (s.tb.usClock - d.moment).toNat < d.budget.toNat ∨ d.late = true →
      exec (.drainBudgetExpiry d.group) s = .next s)

/-! ## Commits -/

/-- COUNTER_STEP while RUNNING below period-1 (R117, R124): the counter enters its next value, and each enabled TIMER group
whose offset in force it is takes its commit event or misses its slot (R34 to R37). COMMIT_IN_EDGE (R34): the same for each
enabled EXTERNAL group, and no edge while the line, high since RESET_N rose, has not been seen low (R182). Both reach no
group unless the bridge is ACTIVE, and every other group stays. The model's choices: a step and a wrap are told apart by the
counter (notes/assumptions/6.md); the COUNTER_STEP row is taken wherever tickDivider stands and leaves it there
(notes/assumptions/7.md); the row of a line not seen low changes nothing (notes/assumptions/32.md). -/
def Obligations.SlotsAndEdgesReachTheirGroups : Prop :=
  (∀ s : State, s.resetLow = false → s.tb.running = true → s.tb.counter.toNat + 1 < s.tb.period.toNat →
    ∃ t, exec .counterStep s = .next t ∧ t.tb = { s.tb with counter := s.tb.counter + 1 } ∧ t.mgmt = s.mgmt ∧
      s.slotsTaken (s.slotReaches s.group (s.tb.counter + 1)) ⟨s.tb.cycle, s.tb.counter + 1, true⟩ s.group t) ∧
  (∀ s : State, s.inputs.commitIn.seen = .highFromRelease → exec .commitInEdge s = .next s) ∧
  ∀ s : State, s.resetLow = false → s.inputs.commitIn.seen ≠ .highFromRelease →
    ∃ t, exec .commitInEdge s = .next t ∧ t.tb = s.tb ∧ t.mgmt = s.mgmt ∧
      s.slotsTaken (fun g => decide (s.op = .active) && (s.group g).enabled && decide ((s.group g).trigger = .external))
        ⟨s.tb.cycle, s.tb.counter, s.tb.running⟩ s.group t

/-- NATURAL_WRAP at the end of the tick of period-1 (R123): counter 0, the next cycle, every pending value in force with
the slot range judged if there was one (R127), channels rearmed (R142), and the slot instant for 0 (R124). SYNC_IN_EDGE
(R128): with sync enable on and the timebase RUNNING a forced wrap with a fresh tick; below period-1 the cycle is truncated,
counted, and TRUNCATED set. Otherwise the edge has no effect, and none is taken while the line, high since RESET_N rose, has
not been seen low (R182). The model's choices: the NATURAL_WRAP row is taken wherever tickDivider stands and leaves it there
(notes/assumptions/7.md), and at a counter at or above the period too, which no run reaches (notes/assumptions/6.md); the edge
row of a line not seen low changes nothing (notes/assumptions/32.md). -/
def Obligations.WrapsDoTheirFourThings : Prop :=
  (∀ s : State, s.resetLow = false → s.tb.running = true → s.tb.period.toNat ≤ s.tb.counter.toNat + 1 →
    ∃ t, exec .naturalWrap s = .next t ∧ t.mgmt = s.mgmt ∧ s.wrapped s.tb.wrapped t) ∧
  ∀ s : State, s.resetLow = false →
    (s.inputs.syncIn.seen ≠ .highFromRelease → s.tb.running = true → s.tb.syncEnable = true →
      ∃ t, exec .syncInEdge s = .next t ∧ t.mgmt = s.mgmt ∧
      s.wrapped { s.tb.wrapped with
        tickDivider := 0
        truncated := if s.tb.counter.toNat + 1 < s.tb.period.toNat then s.tb.truncated + 1 else s.tb.truncated } t ∧
      t.ev.causes.getLsbD 16 =
        (s.ev.causes.getLsbD 16 || decide (s.tb.counter.toNat + 1 < s.tb.period.toNat))) ∧
    (s.tb.running = false ∨ s.tb.syncEnable = false ∨ s.inputs.syncIn.seen = .highFromRelease →
      exec .syncInEdge s = .next s)

/-- START_TIMEBASE (R121): from STOPPED the counter is set to 0 with a fresh tick, the timebase is RUNNING, and the slot
instant for 0 is raised; cycle number and pending values are kept. While RUNNING it is answered BAD_STATE. STOP_TIMEBASE
(R122) freezes the counter, keeps everything else, and is accepted in both run states. -/
def Obligations.TimebaseStartsAndStops : Prop :=
  ∀ s : State, s.takesFrames → s.op ≠ .init →
    (s.tb.running = false → ∃ t, exec .startTimebase s = .next t ∧
      t.tb = { s.tb with counter := 0, tickDivider := 0, running := true } ∧
      t.mgmt = { s.mgmt with result := some ⟨.accepted, []⟩ } ∧
      s.slotsTaken (s.slotReaches s.group 0) ⟨s.tb.cycle, 0, true⟩ s.group t) ∧
    (s.tb.running = true → exec .startTimebase s =
      .next { s with mgmt := { s.mgmt with result := some ⟨.badState, []⟩ } }) ∧
    exec .stopTimebase s = .next { s with
      tb := { s.tb with running := false }
      mgmt := { s.mgmt with result := some ⟨.accepted, []⟩ } }

/-- COMMIT_NOW (R38, R168, R176): the empty set, or a set with a member above 3, is BAD_ARGUMENT in every operating state,
INIT included (the model's reading of the order, notes/assumptions/19.md); any other set is BAD_STATE in INIT and BYPASS,
with nothing changed. In ACTIVE each enabled named group that is not draining takes its commit event; a draining one is
unchanged and reported BUSY; an OFF or unnamed one is unchanged and in neither set. -/
def Obligations.CommitNowTakesOrReportsBusy : Prop :=
  (∀ (s : State) (b : Byte), s.takesFrames →
    (b = 0 ∨ 16 ≤ b.toNat → exec (.commitNow b) s =
      .next { s with mgmt := { s.mgmt with result := some ⟨.badArgument, [0, 0]⟩ } }) ∧
    (b ≠ 0 → b.toNat < 16 → s.op ≠ .active → exec (.commitNow b) s =
      .next { s with mgmt := { s.mgmt with result := some ⟨.badState, [0, 0]⟩ } })) ∧
  ∀ (s : State) (b : Byte), s.takesFrames → s.op = .active → b ≠ 0 → b.toNat < 16 →
    ∃ (t : State) (taken busy : Byte), exec (.commitNow b) s = .next t ∧
      t.mgmt = { s.mgmt with result := some ⟨.accepted, [taken, busy]⟩ } ∧ taken.toNat < 16 ∧ busy.toNat < 16 ∧
      t.tb = s.tb ∧ t.arb = s.arb ∧
      ∀ g : GroupId,
        let named := b.getLsbD g.val && (s.group g).enabled
        taken.getLsbD g.val = (named && decide ((s.group g).drainList = [])) ∧
        busy.getLsbD g.val = (named && decide ((s.group g).drainList ≠ [])) ∧
        (named = true → (s.group g).drainList = [] →
          (s.group g).committed ⟨s.tb.cycle, s.tb.counter, s.tb.running⟩ (t.group g)) ∧
        (named = false ∨ (s.group g).drainList ≠ [] → t.group g = s.group g)

/-- A commit that takes entries, with no write held (R19, R35): exactly the entries of the open list become QUEUED under the
new sequence number, and the new record carries group, sequence, stamp, moment and budget, ISSUING when it finds the queue
empty with no leftover write. An empty commit (R36): sequence, count and stamp go on, no record joins the drain queue,
and a COMMIT record with nothing drained is handed on exactly when log commits is on, which re-evaluates CAPTURE_READY and
IRQ_N. Nothing else changes. -/
def Obligations.CommitEventEffects : Prop :=
  (∀ (s : State) (g : GroupId), s.takesFrames → s.op = .active → (s.group g).enabled = true → s.holds = [] →
    (s.group g).drainList = [] → (s.group g).openList ≠ [] →
    ∃ t, exec (.commitNow (BitVec.twoPow 8 g.val)) s = .next t ∧
      t = { s with
        pool := t.pool, groups := t.groups, drain := t.drain
        mgmt := { s.mgmt with result := some ⟨.accepted, [BitVec.twoPow 8 g.val, 0]⟩ } } ∧
      (∀ h : GroupId, t.group h = if h = g then { s.group g with
          sequence := (s.group g).sequence + 1
          lastCommit := some ⟨s.tb.cycle, s.tb.counter, s.tb.running⟩
          counts := { (s.group g).counts with commitsTaken := (s.group g).counts.commitsTaken + 1 }
          openList := []
          drainList := (s.group g).openList
          firstFault := none } else s.group h) ∧
      (∀ i : PoolIndex, t.entry i = if i ∈ (s.group g).openList
        then (s.entry i).map fun e => { e with state := .queued, gen := .draining ((s.group g).sequence + 1) }
        else s.entry i) ∧
      t.drain = { s.drain with
        commitBusy := true
        queue := s.drain.queue ++ [⟨g, (s.group g).sequence + 1, ⟨s.tb.cycle, s.tb.counter, s.tb.running⟩, s.tb.usClock,
          (s.group g).drainBudget, if s.drain.queue = [] ∧ s.drain.leftovers = [] then .issuing else .waiting,
          (s.group g).openList.head?, 0, 0, 0, false⟩] }) ∧
  ∀ (s : State) (g : GroupId), s.takesFrames → s.op = .active → (s.group g).enabled = true → s.holds = [] →
    (s.group g).drainList = [] → (s.group g).openList = [] → s.cap.queue.length < 32 →
    ∃ t, exec (.commitNow (BitVec.twoPow 8 g.val)) s = .next t ∧
      t = { s with
        groups := t.groups, cap := t.cap, ev := t.ev
        mgmt := { s.mgmt with result := some ⟨.accepted, [BitVec.twoPow 8 g.val, 0]⟩ } } ∧
      (∀ h : GroupId, t.group h = if h = g then { s.group g with
          sequence := (s.group g).sequence + 1
          lastCommit := some ⟨s.tb.cycle, s.tb.counter, s.tb.running⟩
          counts := { (s.group g).counts with commitsTaken := (s.group g).counts.commitsTaken + 1 } } else s.group h) ∧
      (t.cap = if (s.group g).logCommits = true then { s.cap with
          queue := s.cap.queue ++ [⟨.commit g ((s.group g).sequence + 1)
            ⟨s.tb.cycle, s.tb.counter, s.tb.running⟩ 0 0 false, s.cap.lost⟩]
          lost := 0 } else s.cap) ∧
      (t.ev = if (s.group g).logCommits = true then { s.ev with causes := t.ev.causes, irq := t.ev.irq } else s.ev) ∧
      (∀ i < 18, t.ev.causes.getLsbD i = s.ev.causes.getLsbD i) ∧
      ((s.group g).logCommits = true →
        t.ev.causes.getLsbD 18 = decide (s.cap.threshold.toNat ≤ s.cap.queue.length + 1) ∧
        t.ev.irq = decide (t.ev.causes &&& t.ev.enables ≠ 0))

/-- ABORT_GROUP (R22, R43): a group above 3 is BAD_ARGUMENT; an OFF group is BAD_STATE; otherwise the number of open entries
is reported and counted discarded, and the draining list, the commit sequence and the drain engine stay. With no write held
exactly the open entries are freed and nothing else changes. -/
def Obligations.AbortDiscardsTheOpenGeneration : Prop :=
  ∀ (s : State), s.takesFrames →
    (∀ b : Byte, 4 ≤ b.toNat → exec (.abortGroup b) s =
      .next { s with mgmt := { s.mgmt with result := some ⟨.badArgument, [0]⟩ } }) ∧
    ∀ g : GroupId,
      ((s.group g).enabled = false → exec (.abortGroup (BitVec.ofNat 8 g.val)) s =
        .next { s with mgmt := { s.mgmt with result := some ⟨.badState, [0]⟩ } }) ∧
      ((s.group g).enabled = true → s.op ≠ .init → ∃ t, exec (.abortGroup (BitVec.ofNat 8 g.val)) s = .next t ∧
        t.mgmt = { s.mgmt with result := some ⟨.accepted, [BitVec.ofNat 8 (s.group g).openList.length]⟩ } ∧
        (t.group g).counts.discarded =
          (s.group g).counts.discarded + BitVec.ofNat 32 (s.group g).openList.length ∧
        (t.group g).drainList = (s.group g).drainList ∧ (t.group g).sequence = (s.group g).sequence ∧
        t.drain = s.drain ∧ t.arb = s.arb ∧ t.tb = s.tb ∧
        (s.holds = [] →
          t = { s with pool := t.pool, groups := t.groups, mgmt := t.mgmt } ∧
          (∀ h : GroupId, t.group h = if h = g then { s.group g with
            openList := []
            counts := { (s.group g).counts with
              discarded := (s.group g).counts.discarded + BitVec.ofNat 32 (s.group g).openList.length } }
            else s.group h) ∧
          ∀ i : PoolIndex, t.entry i = if i ∈ (s.group g).openList then none else s.entry i))

/-- A commit appears to reads at once (R83): a COMMITTED read of the group formed right after its commit event returns, in
every lane, what a PENDING read formed right before it would have returned. -/
def Obligations.CommitShowsThePendingWord : Prop :=
  ∀ (s t : State) (g : GroupId) (word : WordIndex) (memory : Lanes), s.takesFrames → s.op = .active →
    (s.group g).enabled = true → s.listsAgree → (s.group g).drainList = [] →
    exec (.commitNow (BitVec.twoPow 8 g.val)) s = .next t →
    t.forwardedWord g .committed word memory = s.forwardedWord g .pending word memory

/-! ## Reads of staged windows -/

/-- Youngest-first selection gives, lane by lane, the word memory will hold once the generations have drained: writing the
draining entries of the word over memory in list order, and for PENDING the open entries after them (R70, R71). A read is
fully covered exactly when its forwarded word does not depend on memory (R72). -/
def Obligations.ForwardedWordIsTheDrainedWord : Prop :=
  (∀ (s : State) (g : GroupId) (word : WordIndex) (memory : Lanes),
    let write := fun (m : Lanes) (e : Entry) => (Vector.ofFn fun k => if e.mask.getLsbD k then e.data[k] else m[k] : Lanes)
    let drained := (s.lookup (s.group g).drainList word).foldl write memory
    s.forwardedWord g .committed word memory = drained ∧
    s.forwardedWord g .pending word memory = (s.lookup (s.group g).openList word).foldl write drained) ∧
  ∀ (s : State) (g : GroupId) (view : ReadView) (word : WordIndex),
    s.fullyCovered g view word = true ↔
      ∀ m m' : Lanes, s.forwardedWord g view word m = s.forwardedWord g view word m'

/-! ## The arbiter and the drain engine -/

/-- GRANT with fewer than four requests outstanding and a requester waiting (R63 to R65): the requester that escalation and
the policy choose is sent, as the youngest outstanding item under the next M tag, and the pointer moves past it. The tag is
the count of grants before this one (notes/assumptions/31.md). With four outstanding or nobody waiting the row changes nothing
(notes/assumptions/3.md). -/
def Obligations.GrantFollowsThePolicy : Prop :=
  ∀ s : State, s.resetLow = false →
    (s.arb.outstanding.length < 4 → (∃ r, s.waits r = true) → ∃ (t : State) (r : Requester) (o : Owner) (q : BusRequest),
      exec .grant s = .next t ∧ s.grantRule r ∧ o.isOf r ∧ q.tag = s.arb.grants ∧
      t.arb = { s.arb with
        outstanding := s.arb.outstanding ++ [⟨o, q⟩]
        pointer := r.successor
        grants := s.arb.grants + 1 } ∧
      t.groups = s.groups ∧ t.holds = s.holds ∧ t.tb = s.tb ∧ t.op = s.op ∧ t.mgmt = s.mgmt) ∧
    (4 ≤ s.arb.outstanding.length ∨ (∀ r, s.waits r = false) → exec .grant s = .next s)

/-- A grant to a port (R104, R106): its waiting head is sent with its kind, word, mask and data, moves to ON_M with its
classification, and is counted as a pass read or a pass write; the staged data and the drain engine stay. A grant to the
drain engine (R20, R52): next to issue becomes WRITING and is sent with its word, its mask, its data in masked lanes and zero
elsewhere; one more write outstanding; the generation is CLOSING when no QUEUED entry is left; nothing else changes. The tag
sent is the count of grants before this one (notes/assumptions/31.md), and a pass write is sent with its data as presented in
every lane (notes/assumptions/33.md). -/
def Obligations.GrantSendsAHeadOrADrainWrite : Prop :=
  (∀ (s : State) (p : Port) (r : BusRequest) (cls : Classification), s.resetLow = false →
    s.arb.outstanding.length < 4 → s.grantChoice = some (.port p) → queueOrdered (s.port p).queue = true →
    s.head p = some ⟨r, .head cls .waiting⟩ →
    ∃ t, exec .grant s = .next t ∧
      t.arb.outstanding = s.arb.outstanding ++ [⟨.port p r.tag r.kind, match r with
        | .read w _ => .read w s.arb.grants
        | .write w m d _ => .write w m d s.arb.grants⟩] ∧
      queueMoves r (.head cls .waiting) (.onM cls) (s.port p).queue (t.port p).queue ∧
      (t.port p).counts.passReads = (s.port p).counts.passReads + (if r.kind = .read then 1 else 0) ∧
      (t.port p).counts.passWrites = (s.port p).counts.passWrites + (if r.kind = .write then 1 else 0) ∧
      t.pool = s.pool ∧ t.groups = s.groups ∧ t.drain = s.drain ∧ ∀ q : Port, q ≠ p → t.port q = s.port q) ∧
  ∀ (s : State) (d : Drain) (rest : List Drain) (i : PoolIndex) (e : Entry), s.resetLow = false →
    s.arb.outstanding.length < 4 → s.grantChoice = some .drain → s.drain.queue = d :: rest → d.phase = .issuing →
    d.next = some i → s.entry i = some e →
    ∃ (t : State) (next : Option PoolIndex), exec .grant s = .next t ∧
      t = { s with pool := t.pool, drain := t.drain, arb := t.arb } ∧
      (∀ j : PoolIndex, t.entry j = if j = i then some { e with state := .writing } else s.entry j) ∧
      next = (s.group d.group).drainList.find? (fun j => decide (j ≠ i) && s.entryIs .queued j) ∧
      t.drain = { s.drain with queue := { d with
        next := next
        outstanding := d.outstanding + 1
        phase := if next = none then .closing else .issuing } :: rest } ∧
      t.arb = { s.arb with
        outstanding := s.arb.outstanding ++ [⟨.drain d.group i, .write e.word e.mask
          (Vector.ofFn fun k => if e.mask.getLsbD k then e.data[k] else 0) s.arb.grants⟩]
        pointer := .port .a
        grants := s.arb.grants + 1 }

/-- MEMORY_RESPONSE for a port, whatever tag it carries (R65, R104, R106): the oldest item is removed and the port's oldest
ON_M request answered; an OKAY read of a staged window is merged with the live entries (R73), an ERROR carries zero data and
is recorded, counted and sets PASS_FAULT (R77, R109). The staged data stay. -/
def Obligations.MemoryAnswersThePort : Prop :=
  ∀ (s : State) (p : Port) (t₁ tag : Tag) (k : Access) (q r : BusRequest) (rest : List Outstanding)
    (cls : Classification) (status : Status) (memory : Lanes) (pre post : List QueuedRequest), s.resetLow = false →
    s.arb.outstanding = ⟨.port p t₁ k, q⟩ :: rest → (s.port p).queue = pre ++ ⟨r, .onM cls⟩ :: post →
    (∀ x ∈ pre, x.progress.isOnM = false) →
    ∃ t, exec (.memoryResponse status memory tag) s = .next t ∧
      t = ({ s with arb := { s.arb with outstanding := rest }, cap := t.cap, ev := t.ev }.withPort p (t.port p)) ∧
      (t.port p).queue = pre ++ ⟨r, .answered ⟨status, match r with
        | .write _ _ _ _ => none
        | .read word _ => some (match status, cls.route with
          | .error, _ => Lanes.zero
          | .okay, .pass => memory
          | .okay, .staged g v => s.forwardedWord g v word memory)⟩⟩ :: post ∧
      (t.port p).waiting = (s.port p).waiting ∧
      (status = .okay → (t.port p).lastError = (s.port p).lastError ∧ (t.port p).counts = (s.port p).counts) ∧
      (status = .error →
        (t.port p).lastError =
          some ⟨.downstreamError, r.kind, r.word, r.tag, ⟨s.tb.cycle, s.tb.counter, s.tb.running⟩⟩ ∧
        (t.port p).counts =
          { (s.port p).counts with errDownstream := (s.port p).counts.errDownstream + 1 } ∧
        t.ev.causes.getLsbD 14 = true) ∧
      (cls.channel = none ∨ r.kind = .write → t.cap = s.cap)

/-- MEMORY_RESPONSE for a drain write (R21, R54, R61): the entry leaves its draining list and is counted drained or failed;
an ERROR sets the first-fault address if it is absent, and DRAIN_FAULT. With no write held the entry is free and no other
entry changes. A response that finds nothing outstanding is discarded (R65). -/
def Obligations.MemoryAcknowledgesADrainWrite : Prop :=
  ∀ (s : State) (tag : Tag) (status : Status) (memory : Lanes), s.resetLow = false →
    (s.arb.outstanding = [] → exec (.memoryResponse status memory tag) s = .next s) ∧
    ∀ (g : GroupId) (i : PoolIndex) (e : Entry) (q : BusRequest) (rest : List Outstanding),
      s.arb.outstanding = ⟨.drain g i, q⟩ :: rest → i ∈ (s.group g).drainList → s.entry i = some e →
      ∃ t, exec (.memoryResponse status memory tag) s = .next t ∧
        t.arb.outstanding = rest ∧ t.tb = s.tb ∧ t.op = s.op ∧ t.mgmt = s.mgmt ∧
        (t.group g).drainList = (s.group g).drainList.erase i ∧
        (t.group g).counts.drained = (s.group g).counts.drained + (if status = .okay then 1 else 0) ∧
        (t.group g).counts.failed = (s.group g).counts.failed + (if status = .error then 1 else 0) ∧
        (t.group g).firstFault =
          (if status = .error then (s.group g).firstFault.or (some e.word) else (s.group g).firstFault) ∧
        (∀ h : GroupId, t.ev.causes.getLsbD (8 + h.val) =
          (s.ev.causes.getLsbD (8 + h.val) || (decide (h = g) && decide (status = .error)))) ∧
        (s.holds = [] → t.portA = s.portA ∧ t.portB = s.portB ∧
          (∀ h : GroupId, h ≠ g → t.group h = s.group h) ∧
          ∀ j : PoolIndex, t.entry j = if j = i then none else s.entry j)

/-- The acknowledgement that leaves the head generation CLOSING with no write outstanding retires it (R55, R56): its record
leaves the queue, its COMMIT record is handed on when log commits is on, before any record that the retries bring
(notes/assumptions/13.md), the next generation becomes ISSUING, and COMMIT_BUSY and escalation follow. Before that the
generation only counts it (R54). While writes are left over from RESET_DATAPATH an acknowledgement is of the oldest of them
(notes/assumptions/23.md): one leftover fewer; with the last one COMMIT_BUSY is released on an empty queue, and a WAITING head
issues (R61). -/
def Obligations.AcknowledgementsAreCountedAndRetire : Prop :=
  (∀ (s : State) (tag : Tag) (status : Status) (memory : Lanes) (g : GroupId) (i : PoolIndex) (q : BusRequest)
    (items : List Outstanding) (d : Drain) (rest : List Drain), s.resetLow = false →
    s.arb.outstanding = ⟨.drain g i, q⟩ :: items → s.drain.leftovers = [] → s.drain.queue = d :: rest →
    let acked := { d with
      outstanding := d.outstanding - 1
      drained := if status = .okay then d.drained + 1 else d.drained
      failed := if status = .error then d.failed + 1 else d.failed }
    (d.phase ≠ .closing ∨ 1 < d.outstanding → ∃ t, exec (.memoryResponse status memory tag) s = .next t ∧
      t.drain = { s.drain with queue := acked :: rest } ∧ t.arb = { s.arb with outstanding := items }) ∧
    (d.phase = .closing → d.outstanding = 1 → ∃ t, exec (.memoryResponse status memory tag) s = .next t ∧
      t.drain.leftovers = [] ∧
      (∀ (x : Drain) (more : List Drain), rest = x :: more → t.drain.queue =
        { x with phase := if x.phase = .waiting then .issuing else x.phase } :: more) ∧
      (rest = [] → t.drain.queue = []) ∧
      t.drain.commitBusy = decide (rest ≠ []) ∧ t.arb.escalated = rest.any (·.late) ∧
      ((s.group d.group).logCommits = true → s.cap.queue.length < 32 → ∃ more : List StoredRecord, t.cap.queue =
        s.cap.queue ++ ⟨.commit d.group d.sequence d.stamp acked.drained acked.failed d.late, s.cap.lost⟩ :: more) ∧
      ((s.group d.group).logCommits = false → s.holds = [] → t.cap = s.cap))) ∧
  ∀ (s : State) (tag : Tag) (status : Status) (memory : Lanes) (g : GroupId) (i : PoolIndex) (q : BusRequest)
    (items : List Outstanding) (x : GroupId × PoolIndex) (left : List (GroupId × PoolIndex)), s.resetLow = false →
    s.arb.outstanding = ⟨.drain g i, q⟩ :: items → s.drain.leftovers = x :: left →
    ∃ t, exec (.memoryResponse status memory tag) s = .next t ∧ t.drain.leftovers = left ∧
      t.drain.commitBusy = !(s.drain.queue.isEmpty && left.isEmpty) ∧
      (left ≠ [] → t.drain.queue = s.drain.queue) ∧
      (∀ (d : Drain) (rest : List Drain), left = [] → s.drain.queue = d :: rest →
        t.drain.queue = { d with phase := if d.phase = .waiting then .issuing else d.phase } :: rest) ∧
      (s.drain.queue = [] → t.drain.queue = []) ∧ (s.holds = [] → t.cap = s.cap) ∧
      t.arb = { s.arb with outstanding := items }

/-! ## The bridge -/

/-- ENABLE_BRIDGE moves BYPASS to ACTIVE and changes nothing in ACTIVE (R95). DISABLE_BRIDGE moves ACTIVE to BYPASS unless an
entry is STAGED or QUEUED, a write is held, or a window has a write in passage, which it reports as BUSY with the set of
conditions (R96, R177). -/
def Obligations.BridgeIsEnabledAndDisabled : Prop :=
  ∀ s : State, s.takesFrames →
    (s.op = .init →
      exec .enableBridge s = .next { s with mgmt := { s.mgmt with result := some ⟨.badState, []⟩ } } ∧
      exec .disableBridge s = .next { s with mgmt := { s.mgmt with result := some ⟨.badState, [0]⟩ } }) ∧
    (s.op ≠ .init → exec .enableBridge s = .next ({ s with op := .active }.reply .accepted [])) ∧
    let waitingEntry := (List.finRange 64).any fun i => s.entryIs .staged i || s.entryIs .queued i
    let passage := (List.finRange 8).any fun w => decide ((s.window w).passage ≠ 0)
    (s.op = .bypass ∨ (s.op = .active ∧ waitingEntry = false ∧ s.holds = [] ∧ passage = false) →
      exec .disableBridge s = .next ({ s with op := .bypass }.reply .accepted [0])) ∧
    (s.op = .active → waitingEntry = true ∨ s.holds ≠ [] ∨ passage = true →
      exec .disableBridge s = .next (s.reply .busy [BitVec.ofNat 8
        ((if waitingEntry then 1 else 0) + (if s.holds ≠ [] then 2 else 0) + (if passage then 4 else 0))]))

/-- RESET_DATAPATH (R23, R48, R61, R97, R114, R133, R152, R164): BYPASS; exactly the WRITING entries stay, and each group's
draining list keeps its WRITING entries while its open list empties, the rest counted discarded; the drain queue empties and
the outstanding drain writes are left over; every held write, of one port or of both, is answered ERROR DISCARDED_BY_RESET and
leaves its window's count; a staged write in passage stays with the mark that it is to be answered so; every window keeps its
fields; the capture queue empties; settings, sequences, stamps, the arbiter but for escalation, the timebase and the sticky
causes are kept. What is left over, COMMIT_BUSY without any, and the mark are the model's readings (notes/assumptions/12.md,
15.md, 23.md). -/
def Obligations.ResetDatapathDiscards : Prop :=
  ∀ s : State, s.takesFrames → s.op ≠ .init →
    ∃ t, exec .resetDatapath s = .next t ∧ t.op = .bypass ∧
      (∀ i : PoolIndex, t.entry i = if s.entryIs .writing i then s.entry i else none) ∧
      (∀ g : GroupId, t.group g = { s.group g with
        openList := []
        drainList := (s.group g).drainList.filter (s.entryIs .writing)
        counts := { (s.group g).counts with
          discarded := (s.group g).counts.discarded + BitVec.ofNat 32 ((s.group g).openList.length +
            ((s.group g).drainList.length - ((s.group g).drainList.filter (s.entryIs .writing)).length)) } }) ∧
      t.holds = [] ∧ t.drain.queue = [] ∧ t.drain.leftovers = s.outstandingDrains ∧
      t.drain.commitBusy = decide (s.outstandingDrains ≠ []) ∧
      t.arb = { s.arb with escalated := false } ∧ t.tb = s.tb ∧ t.cap.queue = [] ∧ t.cap.lost = 0 ∧
      (∀ i : Fin 18, t.ev.causes.getLsbD i.val = s.ev.causes.getLsbD i.val) ∧ t.ev.enables = s.ev.enables ∧
      (∀ c : ChannelId, t.channel c = if (s.channel c).state = .off then s.channel c
        else { s.channel c with state := .armed, prescaleCount := 0, skipCount := 0 }) ∧
      (s.cap.threshold ≠ 0 → t.ev.causes.getLsbD 18 = false) ∧
      t.cap.threshold = s.cap.threshold ∧
      (∀ p : Port, p ∉ s.holds.map (·.port) → t.port p = { s.port p with
        queue := (s.port p).queue.map fun q => match q.progress with
          | .head cls (.passage _) => { q with progress := .head cls (.passage true) }
          | _ => q }) ∧
      ((s.holds.map (·.port)).Nodup →
        (∀ (p : Port) (r : BusRequest) (cls : Classification), queueOrdered (s.port p).queue = true →
          p ∈ s.holds.map (·.port) → s.head p = some ⟨r, .head cls .held⟩ →
          (t.port p).counts.errDiscarded = (s.port p).counts.errDiscarded + 1 ∧
          (t.port p).lastError =
            some ⟨.discardedByReset, r.kind, r.word, r.tag, ⟨s.tb.cycle, s.tb.counter, s.tb.running⟩⟩ ∧
          queueMoves r (.head cls .held) (.answered ⟨.error, none⟩) (s.port p).queue (t.port p).queue) ∧
        ((∀ p ∈ s.holds.map (·.port), s.headHeld p = true) → ∀ w : WindowId, t.window w = { s.window w with
          passage := (s.window w).passage - ([Port.a, Port.b].filter fun p =>
            decide (p ∈ s.holds.map (·.port)) && decide (s.passageWindow p = some w)).length })) ∧
      t.mgmt = { s.mgmt with result := some ⟨.accepted,
        [BitVec.ofNat 8 ((List.finRange 64).filter fun i => s.entryIs .staged i || s.entryIs .queued i).length,
          BitVec.ofNat 8 s.holds.length, BitVec.ofNat 8 s.outstandingDrains.length]⟩ }

/-! ## Capture -/

/-- How a channel takes its hits. OFF ignores them (R137). One qualifies by its direction and by the masked lanes it covers
(R138); one that does not is only counted. In GATED a qualifying hit is counted and skipped, without a record, the prescale
count staying (R140). In ARMED one below the prescale is counted on and skipped; one that reaches prescale+1 produces a
record, stored or dropped, with the skip count, restarts both counts, and leaves the channel GATED when its gate is on (R139).
With a prescale of n and the gate off, from restarted counts the first n qualifying hits produce no record and the next one
carries n skipped hits (R139). The zero data outside a hit's mask is the model's choice (notes/assumptions/21.md). -/
def Obligations.PrescaleThinsTheHits : Prop :=
  (∀ (ch : Channel) (h : Hit), ch.qualifies h = true ↔
    (ch.direction = .both ∨ ch.direction = .read ∧ h.direction = .read ∨ ch.direction = .write ∧ h.direction = .write) ∧
    ∀ k : Fin 8, ch.matchMask[k] ≠ 0 →
      h.mask.getLsbD k = true ∧ ∀ b : Fin 8, ch.matchMask[k].getLsbD b = true →
        h.data[k].getLsbD b = ch.matchValue[k].getLsbD b) ∧
  (∀ (s : State) (h : Hit),
    let ch := s.channel h.channel
    let hit := { ch with hits := ch.hits + 1 }
    let skip := if ch.skipCount = 65535 then 65535 else ch.skipCount + 1
    (ch.state = .off → s.takeHit h = s) ∧
    (ch.state ≠ .off → ch.qualifies h = false → s.takeHit h = s.withChannel h.channel hit) ∧
    (ch.state = .gated → ch.qualifies h = true →
      s.takeHit h = s.withChannel h.channel { hit with qualifying := ch.qualifying + 1, skipCount := skip }) ∧
    (ch.state = .armed → ch.qualifies h = true → ch.prescaleCount.toNat < ch.prescale.toNat →
      s.takeHit h = s.withChannel h.channel { hit with
        qualifying := ch.qualifying + 1, skipCount := skip, prescaleCount := ch.prescaleCount + 1 }) ∧
    (ch.state = .armed → ch.qualifies h = true → ch.prescale.toNat ≤ ch.prescaleCount.toNat →
      (s.takeHit h).channel h.channel = { hit with
        qualifying := ch.qualifying + 1, produced := ch.produced + 1, skipCount := 0, prescaleCount := 0
        state := if ch.gate = true then .gated else .armed } ∧
      (∀ c, c ≠ h.channel → (s.takeHit h).channel c = s.channel c) ∧
      (s.takeHit h).cap.queue = (if s.cap.queue.length < 32 then s.cap.queue ++ [⟨.access h.channel
        ⟨s.tb.cycle, s.tb.counter, s.tb.running⟩ h.port h.direction h.word h.error
        (if ch.recordData then some (h.mask, Vector.ofFn fun k => if h.mask.getLsbD k then h.data[k] else 0) else none)
        ch.skipCount, s.cap.lost⟩] else s.cap.queue))) ∧
  ∀ (s : State) (h : Hit), (s.channel h.channel).state = .armed → (s.channel h.channel).gate = false →
    (s.channel h.channel).prescaleCount = 0 → (s.channel h.channel).skipCount = 0 →
    (s.channel h.channel).qualifies h = true →
    let n := (s.channel h.channel).prescale.toNat
    let ch := s.channel h.channel
    (∀ k ≤ n, (State.takeHit h)^[k] s = s.withChannel h.channel { ch with
      hits := ch.hits + BitVec.ofNat 32 k
      qualifying := ch.qualifying + BitVec.ofNat 32 k
      prescaleCount := BitVec.ofNat 8 k
      skipCount := BitVec.ofNat 16 k }) ∧
    (s.cap.queue.length < 32 →
      ((State.takeHit h)^[n + 1] s).cap.queue = s.cap.queue ++ [⟨.access h.channel
        ⟨s.tb.cycle, s.tb.counter, s.tb.running⟩ h.port h.direction h.word h.error
        (if ch.recordData then some (h.mask, Vector.ofFn fun k => if h.mask.getLsbD k then h.data[k] else 0) else none)
        (BitVec.ofNat 16 n), s.cap.lost⟩] ∧
      ((State.takeHit h)^[n + 1] s).channel h.channel = { ch with
        hits := ch.hits + BitVec.ofNat 32 (n + 1)
        qualifying := ch.qualifying + BitVec.ofNat 32 (n + 1)
        produced := ch.produced + 1 })

/-- Which hits reach a channel (R113): a write, pass or staged, gives its hit with its mask and data when it becomes the head,
at its acceptance or behind a head that a grant sends; a read answered at the head gives one with the word formed from the
entries; a read sent to memory gives none then, and one with the word answered and its status at its response. Each is taken
by the channel of the classification, for all eight lanes of a read (R137). -/
def Obligations.HitsReachTheirChannel : Prop :=
  (∀ (s : State) (p : Port) (r : BusRequest) (c : ChannelId), s.resetLow = false → r.wellFormed = true →
    (s.port p).waiting = [] → (s.port p).queue.length < 4 →
    (∀ x ∈ (s.port p).queue, x.progress.isUnsettled = false) → (s.classify p r.word).channel = some c →
    ∃ t, exec (.requestAccept p r) s = .next t ∧
      (∀ word m d tag, r = .write word m d tag →
        let u := s.takeHit ⟨c, p, .write, word, m, d, false⟩
        t.cap = u.cap ∧ t.ev = u.ev) ∧
      (∀ word tag g v, r = .read word tag → (s.classify p word).route = .staged g v → s.fullyCovered g v word = true →
        let u := s.takeHit ⟨c, p, .read, word, 0xFF, s.forwardedWord g v word Lanes.zero, false⟩
        t.cap = u.cap ∧ t.ev = u.ev) ∧
      (∀ word tag, r = .read word tag → (∀ g v, (s.classify p word).route = .staged g v → s.fullyCovered g v word = false) →
        t.cap = s.cap ∧ t.ev = s.ev)) ∧
  (∀ (s : State) (p : Port) (r : BusRequest) (cls : Classification) (c : ChannelId) (word : WordIndex) (m : LaneSet)
    (d : Lanes) (tag : Tag) (pre post : List QueuedRequest), s.resetLow = false → s.arb.outstanding.length < 4 →
    s.grantChoice = some (.port p) → queueOrdered (s.port p).queue = true →
    (s.port p).queue = pre ++ ⟨r, .head cls .waiting⟩ :: ⟨.write word m d tag, .behind⟩ :: post →
    (s.classify p word).channel = some c →
    ∃ t, exec .grant s = .next t ∧
      let u := s.takeHit ⟨c, p, .write, word, m, d, false⟩
      t.cap = u.cap ∧ t.ev = u.ev) ∧
  ∀ (s : State) (p : Port) (t₁ t₂ tag : Tag) (k : Access) (q : BusRequest) (rest : List Outstanding) (word : WordIndex)
    (cls : Classification) (c : ChannelId) (status : Status) (memory : Lanes) (pre post : List QueuedRequest),
    s.resetLow = false → s.arb.outstanding = ⟨.port p t₁ k, q⟩ :: rest →
    (s.port p).queue = pre ++ ⟨.read word t₂, .onM cls⟩ :: post → (∀ x ∈ pre, x.progress.isOnM = false) →
    cls.channel = some c →
    ∃ t, exec (.memoryResponse status memory tag) s = .next t ∧
      let judged := if status = .error then s.raise .passFault else s
      let u := judged.takeHit ⟨c, p, .read, word, 0xFF, match status, cls.route with
        | .error, _ => Lanes.zero
        | .okay, .pass => memory
        | .okay, .staged g v => s.forwardedWord g v word memory, decide (status = .error)⟩
      t.cap = u.cap ∧ t.ev = u.ev

/-- A record handed to the capture queue is stored at the tail with the lost counter's value, which restarts, while the
queue holds fewer than 32; at 32 it is dropped, counted up to 255, and CAPTURE_LOST set (R146, R147). POP_CAPTURE (R148):
BAD_STATE in INIT; otherwise accepted, returning the oldest record, in the layout of 10.6, and removing it, or an EMPTY
record with queue and lost counter unchanged. -/
def Obligations.CaptureQueueStoresDropsAndPops : Prop :=
  (∀ (s : State) (r : CaptureRecord),
    (s.cap.queue.length < 32 → (s.handRecord r).cap = { s.cap with
      queue := s.cap.queue ++ [⟨r, s.cap.lost⟩], lost := 0 } ∧
      (s.handRecord r).ev.causes.getLsbD 17 = s.ev.causes.getLsbD 17) ∧
    (32 ≤ s.cap.queue.length → (s.handRecord r).cap = { s.cap with
      lost := if s.cap.lost = 255 then 255 else s.cap.lost + 1 } ∧
      (s.handRecord r).ev.causes = s.ev.causes ||| BitVec.twoPow 19 17)) ∧
  (∀ s : State, s.takesFrames →
    (s.op = .init → exec .popCapture s =
      .next { s with mgmt := { s.mgmt with result := some ⟨.badState, List.replicate 32 0⟩ } }) ∧
    (s.op ≠ .init → s.cap.queue = [] → exec .popCapture s =
      .next { s with mgmt := { s.mgmt with result := some ⟨.accepted, List.replicate 32 0⟩ } }) ∧
    ∀ (r : StoredRecord) (rest : List StoredRecord), s.op ≠ .init → s.cap.queue = r :: rest →
      ∃ t, exec .popCapture s = .next t ∧
        t = { s with
          cap := { s.cap with queue := rest }, ev := t.ev
          mgmt := { s.mgmt with result := some ⟨.accepted, r.bytes⟩ } } ∧
        r.bytes.length = 32 ∧ t.ev.enables = s.ev.enables ∧
        ∀ i : Fin 19, t.ev.causes.getLsbD i.val =
          if i.val = 18 then decide (s.cap.threshold.toNat ≤ rest.length) else s.ev.causes.getLsbD i.val) ∧
  ∀ (r : StoredRecord) (x : Stamp),
    let number := fun n v : Nat => (List.range n).map fun k => BitVec.ofNat 8 (v / 256 ^ k)
    let flag := fun b : Bool => if b then (1 : Byte) else 0
    (∀ (c : ChannelId) (p : Port) (a : Access) (w : WordIndex) (e : Bool) (d : Option (LaneSet × Lanes)) (k : BitVec 16),
      r.record = .access c x p a w e d k → r.bytes =
        [1, BitVec.ofNat 8 c.val, flag x.running, r.lost] ++ number 4 x.cycle.toNat ++ number 2 x.counter.toNat ++
          [flag (decide (p = .b)), flag (decide (a = .write)), flag e, flag d.isSome] ++ number 5 (8 * w.toNat) ++
          [(d.map (·.1)).getD 0] ++ number 2 k.toNat ++ (d.map fun y => y.2.toList).getD (List.replicate 8 0) ++ [0, 0]) ∧
    ∀ (g : GroupId) (n : BitVec 16) (drained failed : Byte) (late : Bool),
      r.record = .commit g n x drained failed late → r.bytes =
        [2, BitVec.ofNat 8 g.val, flag x.running, r.lost] ++ number 4 x.cycle.toNat ++ number 2 x.counter.toNat ++
          number 2 n.toNat ++ [drained, failed, flag late] ++ List.replicate 17 0

/-- REARM (R141): the empty set, or a set with a member above 3, is BAD_ARGUMENT, in INIT too (the model's reading of the
order, notes/assumptions/19.md); any other set is BAD_STATE in INIT. Outside INIT every named GATED channel becomes ARMED with
its prescale count at 0 and its skip count kept, every other channel stays, and the result is the set of those rearmed. -/
def Obligations.RearmOpensGatedChannels : Prop :=
  ∀ (s : State) (b : Byte), s.takesFrames →
    (b = 0 ∨ 16 ≤ b.toNat → exec (.rearm b) s =
      .next { s with mgmt := { s.mgmt with result := some ⟨.badArgument, [0]⟩ } }) ∧
    (b ≠ 0 → b.toNat < 16 → s.op = .init → exec (.rearm b) s =
      .next { s with mgmt := { s.mgmt with result := some ⟨.badState, [0]⟩ } }) ∧
    (b ≠ 0 → b.toNat < 16 → s.op ≠ .init → ∃ (t : State) (rearmed : Byte), exec (.rearm b) s = .next t ∧
      t = { s with
        cap := { s.cap with channels := t.cap.channels }
        mgmt := { s.mgmt with result := some ⟨.accepted, [rearmed]⟩ } } ∧ rearmed.toNat < 16 ∧
      ∀ c : ChannelId, rearmed.getLsbD c.val = (b.getLsbD c.val && decide ((s.channel c).state = .gated)) ∧
        t.channel c = if rearmed.getLsbD c.val then { s.channel c with state := .armed, prescaleCount := 0 }
          else s.channel c)

/-! ## Events -/

/-- CLEAR_CAUSES outside INIT (R159): exactly the named sticky causes clear; CAPTURE_READY and the enables stay; the result
gives the found set, the cause set and IRQ_N after the command. SET_ENABLES outside INIT (R157): the enable set is replaced
whole, the causes stay, IRQ_N follows at once; the result gives the enable set, the cause set and IRQ_N. In either, a member
above 18 is BAD_ARGUMENT and INIT is BAD_STATE, with nothing changed (R178). -/
def Obligations.CauseAndEnableCommands : Prop :=
  (∀ (s : State) (c : BitVec 24), s.takesFrames →
    (s.op = .init → exec (.clearCauses c) s =
      .next { s with mgmt := { s.mgmt with result := some ⟨.badState, List.replicate 7 0⟩ } }) ∧
    (s.op ≠ .init → 2 ^ 19 ≤ c.toNat → exec (.clearCauses c) s =
      .next { s with mgmt := { s.mgmt with result := some ⟨.badArgument, List.replicate 7 0⟩ } }) ∧
    (s.op ≠ .init → c.toNat < 2 ^ 19 → ∃ (t : State) (found : CauseSet), exec (.clearCauses c) s = .next t ∧
      t = { s with ev := t.ev, mgmt := { s.mgmt with result := some ⟨.accepted,
        bytesLE 3 found ++ bytesLE 3 t.ev.causes ++ [if t.ev.irq then 1 else 0]⟩ } } ∧
      t.ev.enables = s.ev.enables ∧ t.ev.irq = decide (t.ev.causes &&& t.ev.enables ≠ 0) ∧
      ∀ i : Fin 19, t.ev.causes.getLsbD i.val =
          (s.ev.causes.getLsbD i.val && (!c.getLsbD i.val || decide (i.val = 18))) ∧
        found.getLsbD i.val = (s.ev.causes.getLsbD i.val && c.getLsbD i.val && decide (i.val ≠ 18)))) ∧
  ∀ (s : State) (c : BitVec 24), s.takesFrames →
    (s.op = .init → exec (.setEnables c) s =
      .next { s with mgmt := { s.mgmt with result := some ⟨.badState, List.replicate 7 0⟩ } }) ∧
    (s.op ≠ .init → 2 ^ 19 ≤ c.toNat → exec (.setEnables c) s =
      .next { s with mgmt := { s.mgmt with result := some ⟨.badArgument, List.replicate 7 0⟩ } }) ∧
    (s.op ≠ .init → c.toNat < 2 ^ 19 → ∃ t, exec (.setEnables c) s = .next t ∧
      t = { s with ev := t.ev, mgmt := { s.mgmt with result := some ⟨.accepted,
        bytesLE 3 c ++ bytesLE 3 s.ev.causes ++ [if t.ev.irq then 1 else 0]⟩ } } ∧
      t.ev.causes = s.ev.causes ∧ t.ev.enables.toNat = c.toNat ∧
      t.ev.irq = decide (t.ev.causes &&& t.ev.enables ≠ 0))

/-- A sticky cause that is set stays set through every command but CLEAR_CAUSES and RESET_N (R155, R162), and the enable
set changes only by SET_ENABLES and RESET_N (R157). -/
def Obligations.StickyCausesStay : Prop :=
  ∀ (c : Instr) (s t : State), exec c s = .next t → c ≠ .resetNAssert → c ≠ .resetNRelease →
    ((∀ b, c ≠ .clearCauses b) → ∀ i : Fin 18, s.ev.causes.getLsbD i.val = true → t.ev.causes.getLsbD i.val = true) ∧
    ((∀ b, c ≠ .setEnables b) → t.ev.enables = s.ev.enables)

/-! ## Rules of the whole block -/

/-- The transitions of the operating state (R93): besides RESET_N, only INIT_COMPLETE leaves INIT, for BYPASS; only
ENABLE_BRIDGE enters ACTIVE; only DISABLE_BRIDGE and RESET_DATAPATH leave ACTIVE, for BYPASS. While RUNNING the period, the
prescale and the slot offsets in force change only at a wrap or at RESET_N (R31, R125, R126). A window's fields change only
while it is disabled (R86), and only ENABLE_WINDOW, DISABLE_WINDOW and the two RESET_N rows change its enabled field
(R84). -/
def Obligations.ModesAndWindowsChangeOnlyAsTheManualSays : Prop :=
  (∀ (c : Instr) (s t : State), exec c s = .next t → c ≠ .resetNAssert → c ≠ .resetNRelease → t.op ≠ s.op →
    (s.op = .init ∧ t.op = .bypass ∧ c = .initComplete) ∨
    (s.op = .bypass ∧ t.op = .active ∧ c = .enableBridge) ∨
    (s.op = .active ∧ t.op = .bypass ∧ (c = .disableBridge ∨ c = .resetDatapath))) ∧
  (∀ (c : Instr) (s t : State), exec c s = .next t → s.tb.running = true →
    c ≠ .naturalWrap → c ≠ .syncInEdge → c ≠ .resetNAssert → c ≠ .resetNRelease →
    t.tb.period = s.tb.period ∧ t.tb.prescale = s.tb.prescale ∧
      ∀ g : GroupId, (t.group g).slotOffset = (s.group g).slotOffset) ∧
  ∀ (c : Instr) (s t : State) (w : WindowId), exec c s = .next t → c ≠ .resetNAssert → c ≠ .resetNRelease →
    ((s.window w).enabled = true → (t.window w).base = (s.window w).base ∧ (t.window w).limit = (s.window w).limit ∧
      (t.window w).ports = (s.window w).ports ∧ (t.window w).cls = (s.window w).cls ∧
      (t.window w).channel = (s.window w).channel) ∧
    ((∀ b, c ≠ .enableWindow b) → (∀ b, c ≠ .disableWindow b) → (t.window w).enabled = (s.window w).enabled)

/-- Committed data is fixed (R5, R9, R20): a QUEUED or WRITING entry keeps its word, mask, data, group and generation under
every step until it is freed. -/
def Obligations.CommittedDataIsFixed : Prop :=
  ∀ (s t : State) (i : PoolIndex) (e : Entry), s.stagedDataAgree → step s = .next t → s.entry i = some e →
    e.state ≠ .staged →
    t.entry i = none ∨ ∃ e', t.entry i = some e' ∧ (e'.state = .staged ∨
      (e'.word = e.word ∧ e'.mask = e.mask ∧ e'.data = e.data ∧ e'.group = e.group ∧ e'.gen = e.gen))

/-! ## Invariants -/

/-- Every step keeps these: IRQ_N is asserted exactly while at least one enabled cause is set (R158); CAPTURE_READY, the
depth of the capture queue and the channels' counts (R134, R146, R149); while RUNNING the counter stays below the period in
force (R125). -/
def Obligations.EventCaptureAndTimebaseInvariant : Prop :=
  (∀ s t : State, step s = .next t →
    (s.irqAgrees → t.irqAgrees) ∧ (s.captureAgrees → t.captureAgrees) ∧ (s.channelsAgree → t.channelsAgree)) ∧
  ∀ s t : State, s.timebaseAgrees → step s = .next t → t.timebaseAgrees

/-- Every step keeps the balance of every port's and every group's counts (R47, R112), every open generation within its
entry limit (R13), the lines of the drain engine (R59, R60) and the window table's rule: no two enabled windows that apply
to a common port cover a common address, and an enabled STAGED window names an enabled group (R88). COMMIT_BUSY stands exactly
while work is left, at a RESET_DATAPATH without leftover writes too (notes/assumptions/15.md). -/
def Obligations.CountsLinesAndWindowsInvariant : Prop :=
  (∀ s t : State, step s = .next t →
    (∀ p : Port, (s.port p).balanced → (t.port p).balanced) ∧
    ((∀ g : GroupId, (s.group g).balanced) → ∀ g : GroupId, (t.group g).balanced) ∧
    (s.openWithinLimit → t.openWithinLimit)) ∧
  ∀ s t : State, step s = .next t →
    (s.drainLinesAgree → t.drainLinesAgree) ∧ (s.windowsAgree → t.windowsAgree)

/-- Every step keeps the order of the queues (R102), their depth and that of port M (R63, R101), and on top of it the counts
of writes in passage and the hold records (R15, R84). -/
def Obligations.QueuesStayInOrder : Prop :=
  ∀ s t : State, s.portsOrdered → step s = .next t → t.portsOrdered ∧ (s.headsAgree → t.headsAgree)

/-- Every step keeps the staged data in agreement: pool and lists, draining generations and the drain queue, WRITING entries
and the writes outstanding on port M, the fence between generations, and every entry of a draining list with a generation in
the drain queue or a write left over (R1, R3, R5, R20, R50, R51, R61). -/
def Obligations.StagedDataInvariant : Prop :=
  ∀ s t : State, s.stagedDataAgree → step s = .next t → t.stagedDataAgree

end
end

