-- ==== Sys2Proof/Laws/State.lean ====
section
/-! SUPPORT. The lemmas of the state record: for each update of one block of state, what each field reads after it; for the
numbered parts, reading after writing the same part and another part. -/

namespace Sys2Proof.Machine

variable (s : State)

@[simp] theorem State.withOp_resetLow (x : OperatingState) : (s.withOp x).resetLow = s.resetLow := rfl
@[simp] theorem State.withOp_op (x : OperatingState) : (s.withOp x).op = x := rfl
@[simp] theorem State.withOp_windows (x : OperatingState) : (s.withOp x).windows = s.windows := rfl
@[simp] theorem State.withOp_pool (x : OperatingState) : (s.withOp x).pool = s.pool := rfl
@[simp] theorem State.withOp_holds (x : OperatingState) : (s.withOp x).holds = s.holds := rfl
@[simp] theorem State.withOp_groups (x : OperatingState) : (s.withOp x).groups = s.groups := rfl
@[simp] theorem State.withOp_drain (x : OperatingState) : (s.withOp x).drain = s.drain := rfl
@[simp] theorem State.withOp_arb (x : OperatingState) : (s.withOp x).arb = s.arb := rfl
@[simp] theorem State.withOp_portA (x : OperatingState) : (s.withOp x).portA = s.portA := rfl
@[simp] theorem State.withOp_portB (x : OperatingState) : (s.withOp x).portB = s.portB := rfl
@[simp] theorem State.withOp_tb (x : OperatingState) : (s.withOp x).tb = s.tb := rfl
@[simp] theorem State.withOp_cap (x : OperatingState) : (s.withOp x).cap = s.cap := rfl
@[simp] theorem State.withOp_ev (x : OperatingState) : (s.withOp x).ev = s.ev := rfl
@[simp] theorem State.withOp_mgmt (x : OperatingState) : (s.withOp x).mgmt = s.mgmt := rfl
@[simp] theorem State.withOp_inputs (x : OperatingState) : (s.withOp x).inputs = s.inputs := rfl
@[simp] theorem State.withOp_pending (x : OperatingState) : (s.withOp x).pending = s.pending := rfl

@[simp] theorem State.withWindows_resetLow (x : Vector Window 8) : (s.withWindows x).resetLow = s.resetLow := rfl
@[simp] theorem State.withWindows_op (x : Vector Window 8) : (s.withWindows x).op = s.op := rfl
@[simp] theorem State.withWindows_windows (x : Vector Window 8) : (s.withWindows x).windows = x := rfl
@[simp] theorem State.withWindows_pool (x : Vector Window 8) : (s.withWindows x).pool = s.pool := rfl
@[simp] theorem State.withWindows_holds (x : Vector Window 8) : (s.withWindows x).holds = s.holds := rfl
@[simp] theorem State.withWindows_groups (x : Vector Window 8) : (s.withWindows x).groups = s.groups := rfl
@[simp] theorem State.withWindows_drain (x : Vector Window 8) : (s.withWindows x).drain = s.drain := rfl
@[simp] theorem State.withWindows_arb (x : Vector Window 8) : (s.withWindows x).arb = s.arb := rfl
@[simp] theorem State.withWindows_portA (x : Vector Window 8) : (s.withWindows x).portA = s.portA := rfl
@[simp] theorem State.withWindows_portB (x : Vector Window 8) : (s.withWindows x).portB = s.portB := rfl
@[simp] theorem State.withWindows_tb (x : Vector Window 8) : (s.withWindows x).tb = s.tb := rfl
@[simp] theorem State.withWindows_cap (x : Vector Window 8) : (s.withWindows x).cap = s.cap := rfl
@[simp] theorem State.withWindows_ev (x : Vector Window 8) : (s.withWindows x).ev = s.ev := rfl
@[simp] theorem State.withWindows_mgmt (x : Vector Window 8) : (s.withWindows x).mgmt = s.mgmt := rfl
@[simp] theorem State.withWindows_inputs (x : Vector Window 8) : (s.withWindows x).inputs = s.inputs := rfl
@[simp] theorem State.withWindows_pending (x : Vector Window 8) : (s.withWindows x).pending = s.pending := rfl

@[simp] theorem State.withPool_resetLow (x : Vector (Option Entry) 64) : (s.withPool x).resetLow = s.resetLow := rfl
@[simp] theorem State.withPool_op (x : Vector (Option Entry) 64) : (s.withPool x).op = s.op := rfl
@[simp] theorem State.withPool_windows (x : Vector (Option Entry) 64) : (s.withPool x).windows = s.windows := rfl
@[simp] theorem State.withPool_pool (x : Vector (Option Entry) 64) : (s.withPool x).pool = x := rfl
@[simp] theorem State.withPool_holds (x : Vector (Option Entry) 64) : (s.withPool x).holds = s.holds := rfl
@[simp] theorem State.withPool_groups (x : Vector (Option Entry) 64) : (s.withPool x).groups = s.groups := rfl
@[simp] theorem State.withPool_drain (x : Vector (Option Entry) 64) : (s.withPool x).drain = s.drain := rfl
@[simp] theorem State.withPool_arb (x : Vector (Option Entry) 64) : (s.withPool x).arb = s.arb := rfl
@[simp] theorem State.withPool_portA (x : Vector (Option Entry) 64) : (s.withPool x).portA = s.portA := rfl
@[simp] theorem State.withPool_portB (x : Vector (Option Entry) 64) : (s.withPool x).portB = s.portB := rfl
@[simp] theorem State.withPool_tb (x : Vector (Option Entry) 64) : (s.withPool x).tb = s.tb := rfl
@[simp] theorem State.withPool_cap (x : Vector (Option Entry) 64) : (s.withPool x).cap = s.cap := rfl
@[simp] theorem State.withPool_ev (x : Vector (Option Entry) 64) : (s.withPool x).ev = s.ev := rfl
@[simp] theorem State.withPool_mgmt (x : Vector (Option Entry) 64) : (s.withPool x).mgmt = s.mgmt := rfl
@[simp] theorem State.withPool_inputs (x : Vector (Option Entry) 64) : (s.withPool x).inputs = s.inputs := rfl
@[simp] theorem State.withPool_pending (x : Vector (Option Entry) 64) : (s.withPool x).pending = s.pending := rfl

@[simp] theorem State.withHolds_resetLow (x : List Hold) : (s.withHolds x).resetLow = s.resetLow := rfl
@[simp] theorem State.withHolds_op (x : List Hold) : (s.withHolds x).op = s.op := rfl
@[simp] theorem State.withHolds_windows (x : List Hold) : (s.withHolds x).windows = s.windows := rfl
@[simp] theorem State.withHolds_pool (x : List Hold) : (s.withHolds x).pool = s.pool := rfl
@[simp] theorem State.withHolds_holds (x : List Hold) : (s.withHolds x).holds = x := rfl
@[simp] theorem State.withHolds_groups (x : List Hold) : (s.withHolds x).groups = s.groups := rfl
@[simp] theorem State.withHolds_drain (x : List Hold) : (s.withHolds x).drain = s.drain := rfl
@[simp] theorem State.withHolds_arb (x : List Hold) : (s.withHolds x).arb = s.arb := rfl
@[simp] theorem State.withHolds_portA (x : List Hold) : (s.withHolds x).portA = s.portA := rfl
@[simp] theorem State.withHolds_portB (x : List Hold) : (s.withHolds x).portB = s.portB := rfl
@[simp] theorem State.withHolds_tb (x : List Hold) : (s.withHolds x).tb = s.tb := rfl
@[simp] theorem State.withHolds_cap (x : List Hold) : (s.withHolds x).cap = s.cap := rfl
@[simp] theorem State.withHolds_ev (x : List Hold) : (s.withHolds x).ev = s.ev := rfl
@[simp] theorem State.withHolds_mgmt (x : List Hold) : (s.withHolds x).mgmt = s.mgmt := rfl
@[simp] theorem State.withHolds_inputs (x : List Hold) : (s.withHolds x).inputs = s.inputs := rfl
@[simp] theorem State.withHolds_pending (x : List Hold) : (s.withHolds x).pending = s.pending := rfl

@[simp] theorem State.withGroups_resetLow (x : Vector Group 4) : (s.withGroups x).resetLow = s.resetLow := rfl
@[simp] theorem State.withGroups_op (x : Vector Group 4) : (s.withGroups x).op = s.op := rfl
@[simp] theorem State.withGroups_windows (x : Vector Group 4) : (s.withGroups x).windows = s.windows := rfl
@[simp] theorem State.withGroups_pool (x : Vector Group 4) : (s.withGroups x).pool = s.pool := rfl
@[simp] theorem State.withGroups_holds (x : Vector Group 4) : (s.withGroups x).holds = s.holds := rfl
@[simp] theorem State.withGroups_groups (x : Vector Group 4) : (s.withGroups x).groups = x := rfl
@[simp] theorem State.withGroups_drain (x : Vector Group 4) : (s.withGroups x).drain = s.drain := rfl
@[simp] theorem State.withGroups_arb (x : Vector Group 4) : (s.withGroups x).arb = s.arb := rfl
@[simp] theorem State.withGroups_portA (x : Vector Group 4) : (s.withGroups x).portA = s.portA := rfl
@[simp] theorem State.withGroups_portB (x : Vector Group 4) : (s.withGroups x).portB = s.portB := rfl
@[simp] theorem State.withGroups_tb (x : Vector Group 4) : (s.withGroups x).tb = s.tb := rfl
@[simp] theorem State.withGroups_cap (x : Vector Group 4) : (s.withGroups x).cap = s.cap := rfl
@[simp] theorem State.withGroups_ev (x : Vector Group 4) : (s.withGroups x).ev = s.ev := rfl
@[simp] theorem State.withGroups_mgmt (x : Vector Group 4) : (s.withGroups x).mgmt = s.mgmt := rfl
@[simp] theorem State.withGroups_inputs (x : Vector Group 4) : (s.withGroups x).inputs = s.inputs := rfl
@[simp] theorem State.withGroups_pending (x : Vector Group 4) : (s.withGroups x).pending = s.pending := rfl

@[simp] theorem State.withDrain_resetLow (x : DrainEngine) : (s.withDrain x).resetLow = s.resetLow := rfl
@[simp] theorem State.withDrain_op (x : DrainEngine) : (s.withDrain x).op = s.op := rfl
@[simp] theorem State.withDrain_windows (x : DrainEngine) : (s.withDrain x).windows = s.windows := rfl
@[simp] theorem State.withDrain_pool (x : DrainEngine) : (s.withDrain x).pool = s.pool := rfl
@[simp] theorem State.withDrain_holds (x : DrainEngine) : (s.withDrain x).holds = s.holds := rfl
@[simp] theorem State.withDrain_groups (x : DrainEngine) : (s.withDrain x).groups = s.groups := rfl
@[simp] theorem State.withDrain_drain (x : DrainEngine) : (s.withDrain x).drain = x := rfl
@[simp] theorem State.withDrain_arb (x : DrainEngine) : (s.withDrain x).arb = s.arb := rfl
@[simp] theorem State.withDrain_portA (x : DrainEngine) : (s.withDrain x).portA = s.portA := rfl
@[simp] theorem State.withDrain_portB (x : DrainEngine) : (s.withDrain x).portB = s.portB := rfl
@[simp] theorem State.withDrain_tb (x : DrainEngine) : (s.withDrain x).tb = s.tb := rfl
@[simp] theorem State.withDrain_cap (x : DrainEngine) : (s.withDrain x).cap = s.cap := rfl
@[simp] theorem State.withDrain_ev (x : DrainEngine) : (s.withDrain x).ev = s.ev := rfl
@[simp] theorem State.withDrain_mgmt (x : DrainEngine) : (s.withDrain x).mgmt = s.mgmt := rfl
@[simp] theorem State.withDrain_inputs (x : DrainEngine) : (s.withDrain x).inputs = s.inputs := rfl
@[simp] theorem State.withDrain_pending (x : DrainEngine) : (s.withDrain x).pending = s.pending := rfl

@[simp] theorem State.withArb_resetLow (x : Arbiter) : (s.withArb x).resetLow = s.resetLow := rfl
@[simp] theorem State.withArb_op (x : Arbiter) : (s.withArb x).op = s.op := rfl
@[simp] theorem State.withArb_windows (x : Arbiter) : (s.withArb x).windows = s.windows := rfl
@[simp] theorem State.withArb_pool (x : Arbiter) : (s.withArb x).pool = s.pool := rfl
@[simp] theorem State.withArb_holds (x : Arbiter) : (s.withArb x).holds = s.holds := rfl
@[simp] theorem State.withArb_groups (x : Arbiter) : (s.withArb x).groups = s.groups := rfl
@[simp] theorem State.withArb_drain (x : Arbiter) : (s.withArb x).drain = s.drain := rfl
@[simp] theorem State.withArb_arb (x : Arbiter) : (s.withArb x).arb = x := rfl
@[simp] theorem State.withArb_portA (x : Arbiter) : (s.withArb x).portA = s.portA := rfl
@[simp] theorem State.withArb_portB (x : Arbiter) : (s.withArb x).portB = s.portB := rfl
@[simp] theorem State.withArb_tb (x : Arbiter) : (s.withArb x).tb = s.tb := rfl
@[simp] theorem State.withArb_cap (x : Arbiter) : (s.withArb x).cap = s.cap := rfl
@[simp] theorem State.withArb_ev (x : Arbiter) : (s.withArb x).ev = s.ev := rfl
@[simp] theorem State.withArb_mgmt (x : Arbiter) : (s.withArb x).mgmt = s.mgmt := rfl
@[simp] theorem State.withArb_inputs (x : Arbiter) : (s.withArb x).inputs = s.inputs := rfl
@[simp] theorem State.withArb_pending (x : Arbiter) : (s.withArb x).pending = s.pending := rfl

@[simp] theorem State.withPortA_resetLow (x : PortState) : (s.withPortA x).resetLow = s.resetLow := rfl
@[simp] theorem State.withPortA_op (x : PortState) : (s.withPortA x).op = s.op := rfl
@[simp] theorem State.withPortA_windows (x : PortState) : (s.withPortA x).windows = s.windows := rfl
@[simp] theorem State.withPortA_pool (x : PortState) : (s.withPortA x).pool = s.pool := rfl
@[simp] theorem State.withPortA_holds (x : PortState) : (s.withPortA x).holds = s.holds := rfl
@[simp] theorem State.withPortA_groups (x : PortState) : (s.withPortA x).groups = s.groups := rfl
@[simp] theorem State.withPortA_drain (x : PortState) : (s.withPortA x).drain = s.drain := rfl
@[simp] theorem State.withPortA_arb (x : PortState) : (s.withPortA x).arb = s.arb := rfl
@[simp] theorem State.withPortA_portA (x : PortState) : (s.withPortA x).portA = x := rfl
@[simp] theorem State.withPortA_portB (x : PortState) : (s.withPortA x).portB = s.portB := rfl
@[simp] theorem State.withPortA_tb (x : PortState) : (s.withPortA x).tb = s.tb := rfl
@[simp] theorem State.withPortA_cap (x : PortState) : (s.withPortA x).cap = s.cap := rfl
@[simp] theorem State.withPortA_ev (x : PortState) : (s.withPortA x).ev = s.ev := rfl
@[simp] theorem State.withPortA_mgmt (x : PortState) : (s.withPortA x).mgmt = s.mgmt := rfl
@[simp] theorem State.withPortA_inputs (x : PortState) : (s.withPortA x).inputs = s.inputs := rfl
@[simp] theorem State.withPortA_pending (x : PortState) : (s.withPortA x).pending = s.pending := rfl

@[simp] theorem State.withPortB_resetLow (x : PortState) : (s.withPortB x).resetLow = s.resetLow := rfl
@[simp] theorem State.withPortB_op (x : PortState) : (s.withPortB x).op = s.op := rfl
@[simp] theorem State.withPortB_windows (x : PortState) : (s.withPortB x).windows = s.windows := rfl
@[simp] theorem State.withPortB_pool (x : PortState) : (s.withPortB x).pool = s.pool := rfl
@[simp] theorem State.withPortB_holds (x : PortState) : (s.withPortB x).holds = s.holds := rfl
@[simp] theorem State.withPortB_groups (x : PortState) : (s.withPortB x).groups = s.groups := rfl
@[simp] theorem State.withPortB_drain (x : PortState) : (s.withPortB x).drain = s.drain := rfl
@[simp] theorem State.withPortB_arb (x : PortState) : (s.withPortB x).arb = s.arb := rfl
@[simp] theorem State.withPortB_portA (x : PortState) : (s.withPortB x).portA = s.portA := rfl
@[simp] theorem State.withPortB_portB (x : PortState) : (s.withPortB x).portB = x := rfl
@[simp] theorem State.withPortB_tb (x : PortState) : (s.withPortB x).tb = s.tb := rfl
@[simp] theorem State.withPortB_cap (x : PortState) : (s.withPortB x).cap = s.cap := rfl
@[simp] theorem State.withPortB_ev (x : PortState) : (s.withPortB x).ev = s.ev := rfl
@[simp] theorem State.withPortB_mgmt (x : PortState) : (s.withPortB x).mgmt = s.mgmt := rfl
@[simp] theorem State.withPortB_inputs (x : PortState) : (s.withPortB x).inputs = s.inputs := rfl
@[simp] theorem State.withPortB_pending (x : PortState) : (s.withPortB x).pending = s.pending := rfl

@[simp] theorem State.withTb_resetLow (x : Timebase) : (s.withTb x).resetLow = s.resetLow := rfl
@[simp] theorem State.withTb_op (x : Timebase) : (s.withTb x).op = s.op := rfl
@[simp] theorem State.withTb_windows (x : Timebase) : (s.withTb x).windows = s.windows := rfl
@[simp] theorem State.withTb_pool (x : Timebase) : (s.withTb x).pool = s.pool := rfl
@[simp] theorem State.withTb_holds (x : Timebase) : (s.withTb x).holds = s.holds := rfl
@[simp] theorem State.withTb_groups (x : Timebase) : (s.withTb x).groups = s.groups := rfl
@[simp] theorem State.withTb_drain (x : Timebase) : (s.withTb x).drain = s.drain := rfl
@[simp] theorem State.withTb_arb (x : Timebase) : (s.withTb x).arb = s.arb := rfl
@[simp] theorem State.withTb_portA (x : Timebase) : (s.withTb x).portA = s.portA := rfl
@[simp] theorem State.withTb_portB (x : Timebase) : (s.withTb x).portB = s.portB := rfl
@[simp] theorem State.withTb_tb (x : Timebase) : (s.withTb x).tb = x := rfl
@[simp] theorem State.withTb_cap (x : Timebase) : (s.withTb x).cap = s.cap := rfl
@[simp] theorem State.withTb_ev (x : Timebase) : (s.withTb x).ev = s.ev := rfl
@[simp] theorem State.withTb_mgmt (x : Timebase) : (s.withTb x).mgmt = s.mgmt := rfl
@[simp] theorem State.withTb_inputs (x : Timebase) : (s.withTb x).inputs = s.inputs := rfl
@[simp] theorem State.withTb_pending (x : Timebase) : (s.withTb x).pending = s.pending := rfl

@[simp] theorem State.withCap_resetLow (x : CaptureUnit) : (s.withCap x).resetLow = s.resetLow := rfl
@[simp] theorem State.withCap_op (x : CaptureUnit) : (s.withCap x).op = s.op := rfl
@[simp] theorem State.withCap_windows (x : CaptureUnit) : (s.withCap x).windows = s.windows := rfl
@[simp] theorem State.withCap_pool (x : CaptureUnit) : (s.withCap x).pool = s.pool := rfl
@[simp] theorem State.withCap_holds (x : CaptureUnit) : (s.withCap x).holds = s.holds := rfl
@[simp] theorem State.withCap_groups (x : CaptureUnit) : (s.withCap x).groups = s.groups := rfl
@[simp] theorem State.withCap_drain (x : CaptureUnit) : (s.withCap x).drain = s.drain := rfl
@[simp] theorem State.withCap_arb (x : CaptureUnit) : (s.withCap x).arb = s.arb := rfl
@[simp] theorem State.withCap_portA (x : CaptureUnit) : (s.withCap x).portA = s.portA := rfl
@[simp] theorem State.withCap_portB (x : CaptureUnit) : (s.withCap x).portB = s.portB := rfl
@[simp] theorem State.withCap_tb (x : CaptureUnit) : (s.withCap x).tb = s.tb := rfl
@[simp] theorem State.withCap_cap (x : CaptureUnit) : (s.withCap x).cap = x := rfl
@[simp] theorem State.withCap_ev (x : CaptureUnit) : (s.withCap x).ev = s.ev := rfl
@[simp] theorem State.withCap_mgmt (x : CaptureUnit) : (s.withCap x).mgmt = s.mgmt := rfl
@[simp] theorem State.withCap_inputs (x : CaptureUnit) : (s.withCap x).inputs = s.inputs := rfl
@[simp] theorem State.withCap_pending (x : CaptureUnit) : (s.withCap x).pending = s.pending := rfl

@[simp] theorem State.withEv_resetLow (x : EventUnit) : (s.withEv x).resetLow = s.resetLow := rfl
@[simp] theorem State.withEv_op (x : EventUnit) : (s.withEv x).op = s.op := rfl
@[simp] theorem State.withEv_windows (x : EventUnit) : (s.withEv x).windows = s.windows := rfl
@[simp] theorem State.withEv_pool (x : EventUnit) : (s.withEv x).pool = s.pool := rfl
@[simp] theorem State.withEv_holds (x : EventUnit) : (s.withEv x).holds = s.holds := rfl
@[simp] theorem State.withEv_groups (x : EventUnit) : (s.withEv x).groups = s.groups := rfl
@[simp] theorem State.withEv_drain (x : EventUnit) : (s.withEv x).drain = s.drain := rfl
@[simp] theorem State.withEv_arb (x : EventUnit) : (s.withEv x).arb = s.arb := rfl
@[simp] theorem State.withEv_portA (x : EventUnit) : (s.withEv x).portA = s.portA := rfl
@[simp] theorem State.withEv_portB (x : EventUnit) : (s.withEv x).portB = s.portB := rfl
@[simp] theorem State.withEv_tb (x : EventUnit) : (s.withEv x).tb = s.tb := rfl
@[simp] theorem State.withEv_cap (x : EventUnit) : (s.withEv x).cap = s.cap := rfl
@[simp] theorem State.withEv_ev (x : EventUnit) : (s.withEv x).ev = x := rfl
@[simp] theorem State.withEv_mgmt (x : EventUnit) : (s.withEv x).mgmt = s.mgmt := rfl
@[simp] theorem State.withEv_inputs (x : EventUnit) : (s.withEv x).inputs = s.inputs := rfl
@[simp] theorem State.withEv_pending (x : EventUnit) : (s.withEv x).pending = s.pending := rfl

@[simp] theorem State.withMgmt_resetLow (x : ManagementPort) : (s.withMgmt x).resetLow = s.resetLow := rfl
@[simp] theorem State.withMgmt_op (x : ManagementPort) : (s.withMgmt x).op = s.op := rfl
@[simp] theorem State.withMgmt_windows (x : ManagementPort) : (s.withMgmt x).windows = s.windows := rfl
@[simp] theorem State.withMgmt_pool (x : ManagementPort) : (s.withMgmt x).pool = s.pool := rfl
@[simp] theorem State.withMgmt_holds (x : ManagementPort) : (s.withMgmt x).holds = s.holds := rfl
@[simp] theorem State.withMgmt_groups (x : ManagementPort) : (s.withMgmt x).groups = s.groups := rfl
@[simp] theorem State.withMgmt_drain (x : ManagementPort) : (s.withMgmt x).drain = s.drain := rfl
@[simp] theorem State.withMgmt_arb (x : ManagementPort) : (s.withMgmt x).arb = s.arb := rfl
@[simp] theorem State.withMgmt_portA (x : ManagementPort) : (s.withMgmt x).portA = s.portA := rfl
@[simp] theorem State.withMgmt_portB (x : ManagementPort) : (s.withMgmt x).portB = s.portB := rfl
@[simp] theorem State.withMgmt_tb (x : ManagementPort) : (s.withMgmt x).tb = s.tb := rfl
@[simp] theorem State.withMgmt_cap (x : ManagementPort) : (s.withMgmt x).cap = s.cap := rfl
@[simp] theorem State.withMgmt_ev (x : ManagementPort) : (s.withMgmt x).ev = s.ev := rfl
@[simp] theorem State.withMgmt_mgmt (x : ManagementPort) : (s.withMgmt x).mgmt = x := rfl
@[simp] theorem State.withMgmt_inputs (x : ManagementPort) : (s.withMgmt x).inputs = s.inputs := rfl
@[simp] theorem State.withMgmt_pending (x : ManagementPort) : (s.withMgmt x).pending = s.pending := rfl

@[simp] theorem State.withInputs_resetLow (x : EdgeInputs) : (s.withInputs x).resetLow = s.resetLow := rfl
@[simp] theorem State.withInputs_op (x : EdgeInputs) : (s.withInputs x).op = s.op := rfl
@[simp] theorem State.withInputs_windows (x : EdgeInputs) : (s.withInputs x).windows = s.windows := rfl
@[simp] theorem State.withInputs_pool (x : EdgeInputs) : (s.withInputs x).pool = s.pool := rfl
@[simp] theorem State.withInputs_holds (x : EdgeInputs) : (s.withInputs x).holds = s.holds := rfl
@[simp] theorem State.withInputs_groups (x : EdgeInputs) : (s.withInputs x).groups = s.groups := rfl
@[simp] theorem State.withInputs_drain (x : EdgeInputs) : (s.withInputs x).drain = s.drain := rfl
@[simp] theorem State.withInputs_arb (x : EdgeInputs) : (s.withInputs x).arb = s.arb := rfl
@[simp] theorem State.withInputs_portA (x : EdgeInputs) : (s.withInputs x).portA = s.portA := rfl
@[simp] theorem State.withInputs_portB (x : EdgeInputs) : (s.withInputs x).portB = s.portB := rfl
@[simp] theorem State.withInputs_tb (x : EdgeInputs) : (s.withInputs x).tb = s.tb := rfl
@[simp] theorem State.withInputs_cap (x : EdgeInputs) : (s.withInputs x).cap = s.cap := rfl
@[simp] theorem State.withInputs_ev (x : EdgeInputs) : (s.withInputs x).ev = s.ev := rfl
@[simp] theorem State.withInputs_mgmt (x : EdgeInputs) : (s.withInputs x).mgmt = s.mgmt := rfl
@[simp] theorem State.withInputs_inputs (x : EdgeInputs) : (s.withInputs x).inputs = x := rfl
@[simp] theorem State.withInputs_pending (x : EdgeInputs) : (s.withInputs x).pending = s.pending := rfl

/-! ## Ports -/

@[simp] theorem State.port_withPort_same (p : Port) (x : PortState) : (s.withPort p x).port p = x := by cases p <;> rfl

theorem State.port_withPort_ne {p q : Port} (h : p ≠ q) (x : PortState) : (s.withPort p x).port q = s.port q := by
  cases p <;> cases q <;> first | rfl | exact absurd rfl h

/-- Every field but the two ports reads as before when a port is replaced. -/
@[simp] theorem State.withPort_frame (p : Port) (x : PortState) :
    (s.withPort p x).resetLow = s.resetLow ∧ (s.withPort p x).op = s.op ∧ (s.withPort p x).windows = s.windows ∧
    (s.withPort p x).pool = s.pool ∧ (s.withPort p x).holds = s.holds ∧ (s.withPort p x).groups = s.groups ∧
    (s.withPort p x).drain = s.drain ∧ (s.withPort p x).arb = s.arb ∧ (s.withPort p x).tb = s.tb ∧
    (s.withPort p x).cap = s.cap ∧ (s.withPort p x).ev = s.ev ∧ (s.withPort p x).mgmt = s.mgmt ∧
    (s.withPort p x).inputs = s.inputs ∧ (s.withPort p x).pending = s.pending := by
  cases p <;> simp [State.withPort]

@[simp] theorem State.withOp_port (x : OperatingState) (p : Port) : (s.withOp x).port p = s.port p := by cases p <;> rfl
@[simp] theorem State.withWindows_port (x : Vector Window 8) (p : Port) : (s.withWindows x).port p = s.port p := by cases p <;> rfl
@[simp] theorem State.withPool_port (x : Vector (Option Entry) 64) (p : Port) : (s.withPool x).port p = s.port p := by cases p <;> rfl
@[simp] theorem State.withHolds_port (x : List Hold) (p : Port) : (s.withHolds x).port p = s.port p := by cases p <;> rfl
@[simp] theorem State.withGroups_port (x : Vector Group 4) (p : Port) : (s.withGroups x).port p = s.port p := by cases p <;> rfl
@[simp] theorem State.withDrain_port (x : DrainEngine) (p : Port) : (s.withDrain x).port p = s.port p := by cases p <;> rfl
@[simp] theorem State.withArb_port (x : Arbiter) (p : Port) : (s.withArb x).port p = s.port p := by cases p <;> rfl
@[simp] theorem State.withTb_port (x : Timebase) (p : Port) : (s.withTb x).port p = s.port p := by cases p <;> rfl
@[simp] theorem State.withCap_port (x : CaptureUnit) (p : Port) : (s.withCap x).port p = s.port p := by cases p <;> rfl
@[simp] theorem State.withEv_port (x : EventUnit) (p : Port) : (s.withEv x).port p = s.port p := by cases p <;> rfl
@[simp] theorem State.withMgmt_port (x : ManagementPort) (p : Port) : (s.withMgmt x).port p = s.port p := by cases p <;> rfl
@[simp] theorem State.withInputs_port (x : EdgeInputs) (p : Port) : (s.withInputs x).port p = s.port p := by cases p <;> rfl

/-! ## Groups, windows, channels, entries -/

@[simp] theorem State.group_withGroup_same (g : GroupId) (x : Group) : (s.withGroup g x).group g = x := by
  simp [State.withGroup, State.group]

theorem State.group_withGroup_ne {g h : GroupId} (ne : g ≠ h) (x : Group) : (s.withGroup g x).group h = s.group h := by
  simp [State.withGroup, State.group, Fin.val_inj, ne]

/-- Every field but the groups reads as before when a group is replaced. -/
@[simp] theorem State.withGroup_frame (g : GroupId) (x : Group) :
    (s.withGroup g x).resetLow = s.resetLow ∧ (s.withGroup g x).op = s.op ∧ (s.withGroup g x).windows = s.windows ∧
    (s.withGroup g x).pool = s.pool ∧ (s.withGroup g x).holds = s.holds ∧ (s.withGroup g x).drain = s.drain ∧
    (s.withGroup g x).arb = s.arb ∧ (s.withGroup g x).portA = s.portA ∧ (s.withGroup g x).portB = s.portB ∧
    (s.withGroup g x).tb = s.tb ∧ (s.withGroup g x).cap = s.cap ∧ (s.withGroup g x).ev = s.ev ∧
    (s.withGroup g x).mgmt = s.mgmt ∧ (s.withGroup g x).inputs = s.inputs ∧ (s.withGroup g x).pending = s.pending :=
  ⟨rfl, rfl, rfl, rfl, rfl, rfl, rfl, rfl, rfl, rfl, rfl, rfl, rfl, rfl, rfl⟩

@[simp] theorem State.withOp_group (x : OperatingState) (g : GroupId) : (s.withOp x).group g = s.group g := rfl
@[simp] theorem State.withWindows_group (x : Vector Window 8) (g : GroupId) : (s.withWindows x).group g = s.group g := rfl
@[simp] theorem State.withPool_group (x : Vector (Option Entry) 64) (g : GroupId) : (s.withPool x).group g = s.group g := rfl
@[simp] theorem State.withHolds_group (x : List Hold) (g : GroupId) : (s.withHolds x).group g = s.group g := rfl
@[simp] theorem State.withDrain_group (x : DrainEngine) (g : GroupId) : (s.withDrain x).group g = s.group g := rfl
@[simp] theorem State.withArb_group (x : Arbiter) (g : GroupId) : (s.withArb x).group g = s.group g := rfl
@[simp] theorem State.withPortA_group (x : PortState) (g : GroupId) : (s.withPortA x).group g = s.group g := rfl
@[simp] theorem State.withPortB_group (x : PortState) (g : GroupId) : (s.withPortB x).group g = s.group g := rfl
@[simp] theorem State.withTb_group (x : Timebase) (g : GroupId) : (s.withTb x).group g = s.group g := rfl
@[simp] theorem State.withCap_group (x : CaptureUnit) (g : GroupId) : (s.withCap x).group g = s.group g := rfl
@[simp] theorem State.withEv_group (x : EventUnit) (g : GroupId) : (s.withEv x).group g = s.group g := rfl
@[simp] theorem State.withMgmt_group (x : ManagementPort) (g : GroupId) : (s.withMgmt x).group g = s.group g := rfl
@[simp] theorem State.withInputs_group (x : EdgeInputs) (g : GroupId) : (s.withInputs x).group g = s.group g := rfl

@[simp] theorem State.window_withWindow_same (w : WindowId) (x : Window) : (s.withWindow w x).window w = x := by
  simp [State.withWindow, State.window]

theorem State.window_withWindow_ne {v w : WindowId} (ne : v ≠ w) (x : Window) :
    (s.withWindow v x).window w = s.window w := by
  simp [State.withWindow, State.window, Fin.val_inj, ne]

/-- Every field but the windows reads as before when a window is replaced. -/
@[simp] theorem State.withWindow_frame (w : WindowId) (x : Window) :
    (s.withWindow w x).resetLow = s.resetLow ∧ (s.withWindow w x).op = s.op ∧ (s.withWindow w x).pool = s.pool ∧
    (s.withWindow w x).holds = s.holds ∧ (s.withWindow w x).groups = s.groups ∧ (s.withWindow w x).drain = s.drain ∧
    (s.withWindow w x).arb = s.arb ∧ (s.withWindow w x).portA = s.portA ∧ (s.withWindow w x).portB = s.portB ∧
    (s.withWindow w x).tb = s.tb ∧ (s.withWindow w x).cap = s.cap ∧ (s.withWindow w x).ev = s.ev ∧
    (s.withWindow w x).mgmt = s.mgmt ∧ (s.withWindow w x).inputs = s.inputs ∧ (s.withWindow w x).pending = s.pending :=
  ⟨rfl, rfl, rfl, rfl, rfl, rfl, rfl, rfl, rfl, rfl, rfl, rfl, rfl, rfl, rfl⟩

@[simp] theorem State.withOp_window (x : OperatingState) (w : WindowId) : (s.withOp x).window w = s.window w := rfl
@[simp] theorem State.withPool_window (x : Vector (Option Entry) 64) (w : WindowId) : (s.withPool x).window w = s.window w := rfl
@[simp] theorem State.withHolds_window (x : List Hold) (w : WindowId) : (s.withHolds x).window w = s.window w := rfl
@[simp] theorem State.withGroups_window (x : Vector Group 4) (w : WindowId) : (s.withGroups x).window w = s.window w := rfl
@[simp] theorem State.withDrain_window (x : DrainEngine) (w : WindowId) : (s.withDrain x).window w = s.window w := rfl
@[simp] theorem State.withArb_window (x : Arbiter) (w : WindowId) : (s.withArb x).window w = s.window w := rfl
@[simp] theorem State.withPortA_window (x : PortState) (w : WindowId) : (s.withPortA x).window w = s.window w := rfl
@[simp] theorem State.withPortB_window (x : PortState) (w : WindowId) : (s.withPortB x).window w = s.window w := rfl
@[simp] theorem State.withTb_window (x : Timebase) (w : WindowId) : (s.withTb x).window w = s.window w := rfl
@[simp] theorem State.withCap_window (x : CaptureUnit) (w : WindowId) : (s.withCap x).window w = s.window w := rfl
@[simp] theorem State.withEv_window (x : EventUnit) (w : WindowId) : (s.withEv x).window w = s.window w := rfl
@[simp] theorem State.withMgmt_window (x : ManagementPort) (w : WindowId) : (s.withMgmt x).window w = s.window w := rfl
@[simp] theorem State.withInputs_window (x : EdgeInputs) (w : WindowId) : (s.withInputs x).window w = s.window w := rfl

@[simp] theorem State.channel_withChannel_same (c : ChannelId) (x : Channel) : (s.withChannel c x).channel c = x := by
  simp [State.withChannel, State.channel]

theorem State.channel_withChannel_ne {c d : ChannelId} (ne : c ≠ d) (x : Channel) :
    (s.withChannel c x).channel d = s.channel d := by
  simp [State.withChannel, State.channel, Fin.val_inj, ne]

/-- Every field but the capture unit, and of it the queue, the lost counter and the threshold, read as before when a
channel is replaced. -/
@[simp] theorem State.withChannel_frame (c : ChannelId) (x : Channel) :
    (s.withChannel c x).resetLow = s.resetLow ∧ (s.withChannel c x).op = s.op ∧
    (s.withChannel c x).windows = s.windows ∧ (s.withChannel c x).pool = s.pool ∧ (s.withChannel c x).holds = s.holds ∧
    (s.withChannel c x).groups = s.groups ∧ (s.withChannel c x).drain = s.drain ∧ (s.withChannel c x).arb = s.arb ∧
    (s.withChannel c x).portA = s.portA ∧ (s.withChannel c x).portB = s.portB ∧ (s.withChannel c x).tb = s.tb ∧
    (s.withChannel c x).ev = s.ev ∧ (s.withChannel c x).mgmt = s.mgmt ∧ (s.withChannel c x).inputs = s.inputs ∧
    (s.withChannel c x).pending = s.pending ∧ (s.withChannel c x).cap.queue = s.cap.queue ∧
    (s.withChannel c x).cap.lost = s.cap.lost ∧ (s.withChannel c x).cap.threshold = s.cap.threshold :=
  ⟨rfl, rfl, rfl, rfl, rfl, rfl, rfl, rfl, rfl, rfl, rfl, rfl, rfl, rfl, rfl, rfl, rfl, rfl⟩

@[simp] theorem State.withOp_channel (x : OperatingState) (c : ChannelId) : (s.withOp x).channel c = s.channel c := rfl
@[simp] theorem State.withWindows_channel (x : Vector Window 8) (c : ChannelId) : (s.withWindows x).channel c = s.channel c := rfl
@[simp] theorem State.withPool_channel (x : Vector (Option Entry) 64) (c : ChannelId) : (s.withPool x).channel c = s.channel c := rfl
@[simp] theorem State.withHolds_channel (x : List Hold) (c : ChannelId) : (s.withHolds x).channel c = s.channel c := rfl
@[simp] theorem State.withGroups_channel (x : Vector Group 4) (c : ChannelId) : (s.withGroups x).channel c = s.channel c := rfl
@[simp] theorem State.withDrain_channel (x : DrainEngine) (c : ChannelId) : (s.withDrain x).channel c = s.channel c := rfl
@[simp] theorem State.withArb_channel (x : Arbiter) (c : ChannelId) : (s.withArb x).channel c = s.channel c := rfl
@[simp] theorem State.withPortA_channel (x : PortState) (c : ChannelId) : (s.withPortA x).channel c = s.channel c := rfl
@[simp] theorem State.withPortB_channel (x : PortState) (c : ChannelId) : (s.withPortB x).channel c = s.channel c := rfl
@[simp] theorem State.withTb_channel (x : Timebase) (c : ChannelId) : (s.withTb x).channel c = s.channel c := rfl
@[simp] theorem State.withEv_channel (x : EventUnit) (c : ChannelId) : (s.withEv x).channel c = s.channel c := rfl
@[simp] theorem State.withMgmt_channel (x : ManagementPort) (c : ChannelId) : (s.withMgmt x).channel c = s.channel c := rfl
@[simp] theorem State.withInputs_channel (x : EdgeInputs) (c : ChannelId) : (s.withInputs x).channel c = s.channel c := rfl
@[simp] theorem State.withOp_entry (x : OperatingState) (i : PoolIndex) : (s.withOp x).entry i = s.entry i := rfl
@[simp] theorem State.withWindows_entry (x : Vector Window 8) (i : PoolIndex) : (s.withWindows x).entry i = s.entry i := rfl
@[simp] theorem State.withHolds_entry (x : List Hold) (i : PoolIndex) : (s.withHolds x).entry i = s.entry i := rfl
@[simp] theorem State.withGroups_entry (x : Vector Group 4) (i : PoolIndex) : (s.withGroups x).entry i = s.entry i := rfl
@[simp] theorem State.withDrain_entry (x : DrainEngine) (i : PoolIndex) : (s.withDrain x).entry i = s.entry i := rfl
@[simp] theorem State.withArb_entry (x : Arbiter) (i : PoolIndex) : (s.withArb x).entry i = s.entry i := rfl
@[simp] theorem State.withPortA_entry (x : PortState) (i : PoolIndex) : (s.withPortA x).entry i = s.entry i := rfl
@[simp] theorem State.withPortB_entry (x : PortState) (i : PoolIndex) : (s.withPortB x).entry i = s.entry i := rfl
@[simp] theorem State.withTb_entry (x : Timebase) (i : PoolIndex) : (s.withTb x).entry i = s.entry i := rfl
@[simp] theorem State.withCap_entry (x : CaptureUnit) (i : PoolIndex) : (s.withCap x).entry i = s.entry i := rfl
@[simp] theorem State.withEv_entry (x : EventUnit) (i : PoolIndex) : (s.withEv x).entry i = s.entry i := rfl
@[simp] theorem State.withMgmt_entry (x : ManagementPort) (i : PoolIndex) : (s.withMgmt x).entry i = s.entry i := rfl
@[simp] theorem State.withInputs_entry (x : EdgeInputs) (i : PoolIndex) : (s.withInputs x).entry i = s.entry i := rfl

/-- An entry after one change to each live entry of a list: changed on the list, as before elsewhere. -/
@[simp] theorem State.entry_updateEntries (l : List PoolIndex) (f : Entry → Entry) (i : PoolIndex) :
    (s.withPool (updateEntries l f s.pool)).entry i = if i ∈ l then (s.entry i).map f else s.entry i := by
  simp [State.entry, updateEntries]

/-- An entry after a list of entries is freed: free on the list, as before elsewhere. -/
@[simp] theorem State.entry_freeEntries (l : List PoolIndex) (i : PoolIndex) :
    (s.withPool (freeEntries l s.pool)).entry i = if i ∈ l then none else s.entry i := by
  simp [State.entry, freeEntries]

/-- An entry after one entry is written whole. -/
theorem State.entry_setPool (i j : PoolIndex) (e : Option Entry) :
    (s.withPool (s.pool.set i e)).entry j = if i = j then e else s.entry j := by
  simp [State.entry, Vector.getElem_set, Fin.val_inj]

/-! ## Two updates of one block -/

@[simp] theorem State.withOp_withOp (x y : OperatingState) : (s.withOp x).withOp y = s.withOp y := rfl
@[simp] theorem State.withWindows_withWindows (x y : Vector Window 8) : (s.withWindows x).withWindows y = s.withWindows y := rfl
@[simp] theorem State.withPool_withPool (x y : Vector (Option Entry) 64) : (s.withPool x).withPool y = s.withPool y := rfl
@[simp] theorem State.withHolds_withHolds (x y : List Hold) : (s.withHolds x).withHolds y = s.withHolds y := rfl
@[simp] theorem State.withGroups_withGroups (x y : Vector Group 4) : (s.withGroups x).withGroups y = s.withGroups y := rfl
@[simp] theorem State.withDrain_withDrain (x y : DrainEngine) : (s.withDrain x).withDrain y = s.withDrain y := rfl
@[simp] theorem State.withArb_withArb (x y : Arbiter) : (s.withArb x).withArb y = s.withArb y := rfl
@[simp] theorem State.withPortA_withPortA (x y : PortState) : (s.withPortA x).withPortA y = s.withPortA y := rfl
@[simp] theorem State.withPortB_withPortB (x y : PortState) : (s.withPortB x).withPortB y = s.withPortB y := rfl
@[simp] theorem State.withTb_withTb (x y : Timebase) : (s.withTb x).withTb y = s.withTb y := rfl
@[simp] theorem State.withCap_withCap (x y : CaptureUnit) : (s.withCap x).withCap y = s.withCap y := rfl
@[simp] theorem State.withEv_withEv (x y : EventUnit) : (s.withEv x).withEv y = s.withEv y := rfl
@[simp] theorem State.withMgmt_withMgmt (x y : ManagementPort) : (s.withMgmt x).withMgmt y = s.withMgmt y := rfl
@[simp] theorem State.withInputs_withInputs (x y : EdgeInputs) : (s.withInputs x).withInputs y = s.withInputs y := rfl

end Sys2Proof.Machine
end

