-- ==== Sys2Proof/Laws/Frames.lean ====
section
/-! SUPPORT. The frame of each shared operation: every block of state the operation does not change, in one lemma per
operation. -/

namespace Sys2Proof.Machine

variable (s : State)

/-- Setting a cause changes the event unit only (R155). -/
@[simp] theorem State.raise_frame (c : Cause) :
    (s.raise c).resetLow = s.resetLow ∧ (s.raise c).op = s.op ∧ (s.raise c).windows = s.windows ∧
    (s.raise c).pool = s.pool ∧ (s.raise c).holds = s.holds ∧ (s.raise c).groups = s.groups ∧
    (s.raise c).drain = s.drain ∧ (s.raise c).arb = s.arb ∧ (s.raise c).portA = s.portA ∧ (s.raise c).portB = s.portB ∧
    (s.raise c).tb = s.tb ∧ (s.raise c).cap = s.cap ∧ (s.raise c).mgmt = s.mgmt ∧ (s.raise c).inputs = s.inputs ∧
    (s.raise c).pending = s.pending := by simp [State.raise]

/-- Re-evaluating CAPTURE_READY changes the event unit only (R156). -/
@[simp] theorem State.refreshReady_frame :
    s.refreshReady.resetLow = s.resetLow ∧ s.refreshReady.op = s.op ∧ s.refreshReady.windows = s.windows ∧
    s.refreshReady.pool = s.pool ∧ s.refreshReady.holds = s.holds ∧ s.refreshReady.groups = s.groups ∧
    s.refreshReady.drain = s.drain ∧ s.refreshReady.arb = s.arb ∧ s.refreshReady.portA = s.portA ∧
    s.refreshReady.portB = s.portB ∧ s.refreshReady.tb = s.tb ∧ s.refreshReady.cap = s.cap ∧
    s.refreshReady.mgmt = s.mgmt ∧ s.refreshReady.inputs = s.inputs ∧ s.refreshReady.pending = s.pending := by
  simp [State.refreshReady]

/-- Handing a record to the capture queue changes the capture unit and the causes only (R146, R147). -/
@[simp] theorem State.handRecord_frame (r : CaptureRecord) :
    (s.handRecord r).resetLow = s.resetLow ∧ (s.handRecord r).op = s.op ∧ (s.handRecord r).windows = s.windows ∧
    (s.handRecord r).pool = s.pool ∧ (s.handRecord r).holds = s.holds ∧ (s.handRecord r).groups = s.groups ∧
    (s.handRecord r).drain = s.drain ∧ (s.handRecord r).arb = s.arb ∧ (s.handRecord r).portA = s.portA ∧
    (s.handRecord r).portB = s.portB ∧ (s.handRecord r).tb = s.tb ∧ (s.handRecord r).mgmt = s.mgmt ∧
    (s.handRecord r).inputs = s.inputs ∧ (s.handRecord r).pending = s.pending := by
  unfold State.handRecord; split <;> simp

/-- A hit changes the capture unit and the causes only (R137 to R140). -/
@[simp] theorem State.takeHit_frame (h : Hit) :
    (s.takeHit h).resetLow = s.resetLow ∧ (s.takeHit h).op = s.op ∧ (s.takeHit h).windows = s.windows ∧
    (s.takeHit h).pool = s.pool ∧ (s.takeHit h).holds = s.holds ∧ (s.takeHit h).groups = s.groups ∧
    (s.takeHit h).drain = s.drain ∧ (s.takeHit h).arb = s.arb ∧ (s.takeHit h).portA = s.portA ∧
    (s.takeHit h).portB = s.portB ∧ (s.takeHit h).tb = s.tb ∧ (s.takeHit h).mgmt = s.mgmt ∧
    (s.takeHit h).inputs = s.inputs ∧ (s.takeHit h).pending = s.pending := by
  simp only [State.takeHit]
  repeat' split
  all_goals simp

/-- Rearming at a wrap changes the capture unit only (R142). -/
@[simp] theorem State.rearmAtWrap_frame :
    s.rearmAtWrap.resetLow = s.resetLow ∧ s.rearmAtWrap.op = s.op ∧ s.rearmAtWrap.windows = s.windows ∧
    s.rearmAtWrap.pool = s.pool ∧ s.rearmAtWrap.holds = s.holds ∧ s.rearmAtWrap.groups = s.groups ∧
    s.rearmAtWrap.drain = s.drain ∧ s.rearmAtWrap.arb = s.arb ∧ s.rearmAtWrap.portA = s.portA ∧
    s.rearmAtWrap.portB = s.portB ∧ s.rearmAtWrap.tb = s.tb ∧ s.rearmAtWrap.ev = s.ev ∧ s.rearmAtWrap.mgmt = s.mgmt ∧
    s.rearmAtWrap.inputs = s.inputs ∧ s.rearmAtWrap.pending = s.pending := by simp [State.rearmAtWrap]

/-- RESET_DATAPATH at the capture unit changes that unit and CAPTURE_READY only (R152). -/
@[simp] theorem State.resetCapture_frame :
    s.resetCapture.resetLow = s.resetLow ∧ s.resetCapture.op = s.op ∧ s.resetCapture.windows = s.windows ∧
    s.resetCapture.pool = s.pool ∧ s.resetCapture.holds = s.holds ∧ s.resetCapture.groups = s.groups ∧
    s.resetCapture.drain = s.drain ∧ s.resetCapture.arb = s.arb ∧ s.resetCapture.portA = s.portA ∧
    s.resetCapture.portB = s.portB ∧ s.resetCapture.tb = s.tb ∧ s.resetCapture.mgmt = s.mgmt ∧
    s.resetCapture.inputs = s.inputs ∧ s.resetCapture.pending = s.pending := by simp [State.resetCapture]

/-- A group count changes the groups only (R46). -/
@[simp] theorem State.countGroup_frame (g : GroupId) (f : GroupCounts → GroupCounts) :
    (s.countGroup g f).resetLow = s.resetLow ∧ (s.countGroup g f).op = s.op ∧ (s.countGroup g f).windows = s.windows ∧
    (s.countGroup g f).pool = s.pool ∧ (s.countGroup g f).holds = s.holds ∧ (s.countGroup g f).drain = s.drain ∧
    (s.countGroup g f).arb = s.arb ∧ (s.countGroup g f).portA = s.portA ∧ (s.countGroup g f).portB = s.portB ∧
    (s.countGroup g f).tb = s.tb ∧ (s.countGroup g f).cap = s.cap ∧ (s.countGroup g f).ev = s.ev ∧
    (s.countGroup g f).mgmt = s.mgmt ∧ (s.countGroup g f).inputs = s.inputs ∧ (s.countGroup g f).pending = s.pending := by
  simp [State.countGroup]

/-- A port count changes the ports only (R111). -/
@[simp] theorem State.countPort_frame (p : Port) (f : PortCounts → PortCounts) :
    (s.countPort p f).resetLow = s.resetLow ∧ (s.countPort p f).op = s.op ∧ (s.countPort p f).windows = s.windows ∧
    (s.countPort p f).pool = s.pool ∧ (s.countPort p f).holds = s.holds ∧ (s.countPort p f).groups = s.groups ∧
    (s.countPort p f).drain = s.drain ∧ (s.countPort p f).arb = s.arb ∧ (s.countPort p f).tb = s.tb ∧
    (s.countPort p f).cap = s.cap ∧ (s.countPort p f).ev = s.ev ∧ (s.countPort p f).mgmt = s.mgmt ∧
    (s.countPort p f).inputs = s.inputs ∧ (s.countPort p f).pending = s.pending := by simp [State.countPort]

/-- A request's progress changes the ports only (R102). -/
@[simp] theorem State.progressFirst_frame (p : Port) (test : Progress → Bool) (new : Progress) :
    (s.progressFirst p test new).resetLow = s.resetLow ∧ (s.progressFirst p test new).op = s.op ∧
    (s.progressFirst p test new).windows = s.windows ∧ (s.progressFirst p test new).pool = s.pool ∧
    (s.progressFirst p test new).holds = s.holds ∧ (s.progressFirst p test new).groups = s.groups ∧
    (s.progressFirst p test new).drain = s.drain ∧ (s.progressFirst p test new).arb = s.arb ∧
    (s.progressFirst p test new).tb = s.tb ∧ (s.progressFirst p test new).cap = s.cap ∧
    (s.progressFirst p test new).ev = s.ev ∧ (s.progressFirst p test new).mgmt = s.mgmt ∧
    (s.progressFirst p test new).inputs = s.inputs ∧ (s.progressFirst p test new).pending = s.pending := by
  simp [State.progressFirst]

/-- A request's hit changes the capture unit and the causes only (R113). -/
@[simp] theorem State.hitFor_frame (p : Port) (r : BusRequest) (cls : Classification) (m : LaneSet) (d : Lanes) (e : Bool) :
    (s.hitFor p r cls m d e).resetLow = s.resetLow ∧ (s.hitFor p r cls m d e).op = s.op ∧
    (s.hitFor p r cls m d e).windows = s.windows ∧ (s.hitFor p r cls m d e).pool = s.pool ∧
    (s.hitFor p r cls m d e).holds = s.holds ∧ (s.hitFor p r cls m d e).groups = s.groups ∧
    (s.hitFor p r cls m d e).drain = s.drain ∧ (s.hitFor p r cls m d e).arb = s.arb ∧
    (s.hitFor p r cls m d e).portA = s.portA ∧ (s.hitFor p r cls m d e).portB = s.portB ∧
    (s.hitFor p r cls m d e).tb = s.tb ∧ (s.hitFor p r cls m d e).mgmt = s.mgmt ∧
    (s.hitFor p r cls m d e).inputs = s.inputs ∧ (s.hitFor p r cls m d e).pending = s.pending := by
  unfold State.hitFor; split <;> simp

/-- A count of writes in passage changes the windows only (R84). -/
@[simp] theorem State.passage_frame (w : Option WindowId) (f : Nat → Nat) :
    (s.passage w f).resetLow = s.resetLow ∧ (s.passage w f).op = s.op ∧ (s.passage w f).pool = s.pool ∧
    (s.passage w f).holds = s.holds ∧ (s.passage w f).groups = s.groups ∧ (s.passage w f).drain = s.drain ∧
    (s.passage w f).arb = s.arb ∧ (s.passage w f).portA = s.portA ∧ (s.passage w f).portB = s.portB ∧
    (s.passage w f).tb = s.tb ∧ (s.passage w f).cap = s.cap ∧ (s.passage w f).ev = s.ev ∧
    (s.passage w f).mgmt = s.mgmt ∧ (s.passage w f).inputs = s.inputs ∧ (s.passage w f).pending = s.pending := by
  unfold State.passage; split <;> simp

/-- Recording an error changes the ports only (R110). -/
@[simp] theorem State.recordError_frame (p : Port) (r : ErrorReason) (q : BusRequest) :
    (s.recordError p r q).resetLow = s.resetLow ∧ (s.recordError p r q).op = s.op ∧
    (s.recordError p r q).windows = s.windows ∧ (s.recordError p r q).pool = s.pool ∧
    (s.recordError p r q).holds = s.holds ∧ (s.recordError p r q).groups = s.groups ∧
    (s.recordError p r q).drain = s.drain ∧ (s.recordError p r q).arb = s.arb ∧ (s.recordError p r q).tb = s.tb ∧
    (s.recordError p r q).cap = s.cap ∧ (s.recordError p r q).ev = s.ev ∧ (s.recordError p r q).mgmt = s.mgmt ∧
    (s.recordError p r q).inputs = s.inputs ∧ (s.recordError p r q).pending = s.pending := by simp [State.recordError]

/-- Answering a placed write changes the ports and the windows' counts only (R105). -/
@[simp] theorem State.answerPlaced_frame (p : Port) (cls : Classification) (m : Bool) :
    (s.answerPlaced p cls m).resetLow = s.resetLow ∧ (s.answerPlaced p cls m).op = s.op ∧
    (s.answerPlaced p cls m).pool = s.pool ∧ (s.answerPlaced p cls m).holds = s.holds ∧
    (s.answerPlaced p cls m).groups = s.groups ∧ (s.answerPlaced p cls m).drain = s.drain ∧
    (s.answerPlaced p cls m).arb = s.arb ∧ (s.answerPlaced p cls m).tb = s.tb ∧ (s.answerPlaced p cls m).cap = s.cap ∧
    (s.answerPlaced p cls m).ev = s.ev ∧ (s.answerPlaced p cls m).mgmt = s.mgmt ∧
    (s.answerPlaced p cls m).inputs = s.inputs ∧ (s.answerPlaced p cls m).pending = s.pending := by
  simp [State.answerPlaced]

/-- Answering a refused write changes the ports and the windows' counts only (R105). -/
@[simp] theorem State.answerRefused_frame (p : Port) (cls : Classification) (q : BusRequest) (r : ErrorReason) :
    (s.answerRefused p cls q r).resetLow = s.resetLow ∧ (s.answerRefused p cls q r).op = s.op ∧
    (s.answerRefused p cls q r).pool = s.pool ∧ (s.answerRefused p cls q r).holds = s.holds ∧
    (s.answerRefused p cls q r).groups = s.groups ∧ (s.answerRefused p cls q r).drain = s.drain ∧
    (s.answerRefused p cls q r).arb = s.arb ∧ (s.answerRefused p cls q r).tb = s.tb ∧
    (s.answerRefused p cls q r).cap = s.cap ∧ (s.answerRefused p cls q r).ev = s.ev ∧
    (s.answerRefused p cls q r).mgmt = s.mgmt ∧ (s.answerRefused p cls q r).inputs = s.inputs ∧
    (s.answerRefused p cls q r).pending = s.pending := by simp [State.answerRefused]

/-- Becoming the head changes the ports, the windows' counts and the capture side only (R103). -/
@[simp] theorem State.enterHead_frame (p : Port) (r : BusRequest) :
    (s.enterHead p r).resetLow = s.resetLow ∧ (s.enterHead p r).op = s.op ∧ (s.enterHead p r).pool = s.pool ∧
    (s.enterHead p r).holds = s.holds ∧ (s.enterHead p r).groups = s.groups ∧ (s.enterHead p r).drain = s.drain ∧
    (s.enterHead p r).arb = s.arb ∧ (s.enterHead p r).tb = s.tb ∧ (s.enterHead p r).mgmt = s.mgmt ∧
    (s.enterHead p r).inputs = s.inputs ∧ (s.enterHead p r).pending = s.pending := by
  simp only [State.enterHead]
  repeat' split
  all_goals simp

/-- Bringing heads changes the ports, the windows' counts and the capture side only (R102). -/
@[simp] theorem State.bringHeads_frame (p : Port) (n : Nat) :
    (s.bringHeads p n).resetLow = s.resetLow ∧ (s.bringHeads p n).op = s.op ∧ (s.bringHeads p n).pool = s.pool ∧
    (s.bringHeads p n).holds = s.holds ∧ (s.bringHeads p n).groups = s.groups ∧ (s.bringHeads p n).drain = s.drain ∧
    (s.bringHeads p n).arb = s.arb ∧ (s.bringHeads p n).tb = s.tb ∧ (s.bringHeads p n).mgmt = s.mgmt ∧
    (s.bringHeads p n).inputs = s.inputs ∧ (s.bringHeads p n).pending = s.pending := by
  induction n generalizing s with
  | zero => simp [State.bringHeads]
  | succ n ih =>
    simp only [State.bringHeads]
    split
    · simp [ih]
    · simp

/-- A port moving on changes the ports, the windows' counts and the capture side only (R102). -/
@[simp] theorem State.moveOn_frame (p : Port) :
    (s.moveOn p).resetLow = s.resetLow ∧ (s.moveOn p).op = s.op ∧ (s.moveOn p).pool = s.pool ∧
    (s.moveOn p).holds = s.holds ∧ (s.moveOn p).groups = s.groups ∧ (s.moveOn p).drain = s.drain ∧
    (s.moveOn p).arb = s.arb ∧ (s.moveOn p).tb = s.tb ∧ (s.moveOn p).mgmt = s.mgmt ∧ (s.moveOn p).inputs = s.inputs ∧
    (s.moveOn p).pending = s.pending := by simp [State.moveOn]

/-- Accepting a request changes the ports, the windows' counts and the capture side only (R101). -/
@[simp] theorem State.acceptRequest_frame (p : Port) (r : BusRequest) :
    (s.acceptRequest p r).resetLow = s.resetLow ∧ (s.acceptRequest p r).op = s.op ∧
    (s.acceptRequest p r).pool = s.pool ∧ (s.acceptRequest p r).holds = s.holds ∧
    (s.acceptRequest p r).groups = s.groups ∧ (s.acceptRequest p r).drain = s.drain ∧
    (s.acceptRequest p r).arb = s.arb ∧ (s.acceptRequest p r).tb = s.tb ∧ (s.acceptRequest p r).mgmt = s.mgmt ∧
    (s.acceptRequest p r).inputs = s.inputs ∧ (s.acceptRequest p r).pending = s.pending := by simp [State.acceptRequest]

/-- Several ports moving on change the ports, the windows' counts and the capture side only (R102). -/
@[simp] theorem State.moveOnAll_frame (l : List Port) :
    (s.moveOnAll l).resetLow = s.resetLow ∧ (s.moveOnAll l).op = s.op ∧ (s.moveOnAll l).pool = s.pool ∧
    (s.moveOnAll l).holds = s.holds ∧ (s.moveOnAll l).groups = s.groups ∧ (s.moveOnAll l).drain = s.drain ∧
    (s.moveOnAll l).arb = s.arb ∧ (s.moveOnAll l).tb = s.tb ∧ (s.moveOnAll l).mgmt = s.mgmt ∧
    (s.moveOnAll l).inputs = s.inputs ∧ (s.moveOnAll l).pending = s.pending := by
  induction l generalizing s with
  | nil => simp [State.moveOnAll]
  | cons p rest ih => simp [State.moveOnAll, ih]

/-- A placement changes the pool, the groups and the causes only (R7). -/
@[simp] theorem State.place_frame (p : Port) (g : GroupId) (w : WordIndex) (m : LaneSet) (d : Lanes) :
    (s.place p g w m d).1.resetLow = s.resetLow ∧ (s.place p g w m d).1.op = s.op ∧
    (s.place p g w m d).1.windows = s.windows ∧ (s.place p g w m d).1.holds = s.holds ∧
    (s.place p g w m d).1.drain = s.drain ∧ (s.place p g w m d).1.arb = s.arb ∧ (s.place p g w m d).1.portA = s.portA ∧
    (s.place p g w m d).1.portB = s.portB ∧ (s.place p g w m d).1.tb = s.tb ∧ (s.place p g w m d).1.cap = s.cap ∧
    (s.place p g w m d).1.mgmt = s.mgmt ∧ (s.place p g w m d).1.inputs = s.inputs ∧
    (s.place p g w m d).1.pending = s.pending := by
  simp only [State.place]
  repeat' split
  all_goals simp

/-- Removing a hold record changes the hold records only (R15). -/
@[simp] theorem State.dropHold_frame (p : Port) :
    (s.dropHold p).resetLow = s.resetLow ∧ (s.dropHold p).op = s.op ∧ (s.dropHold p).windows = s.windows ∧
    (s.dropHold p).pool = s.pool ∧ (s.dropHold p).groups = s.groups ∧ (s.dropHold p).drain = s.drain ∧
    (s.dropHold p).arb = s.arb ∧ (s.dropHold p).portA = s.portA ∧ (s.dropHold p).portB = s.portB ∧
    (s.dropHold p).tb = s.tb ∧ (s.dropHold p).cap = s.cap ∧ (s.dropHold p).ev = s.ev ∧ (s.dropHold p).mgmt = s.mgmt ∧
    (s.dropHold p).inputs = s.inputs ∧ (s.dropHold p).pending = s.pending := by simp [State.dropHold]

/-- A retry changes neither the drain engine, the arbiter, the timebase nor the capture unit (R17). -/
@[simp] theorem State.retryHold_frame (h : Hold) :
    (s.retryHold h).1.resetLow = s.resetLow ∧ (s.retryHold h).1.op = s.op ∧ (s.retryHold h).1.drain = s.drain ∧
    (s.retryHold h).1.arb = s.arb ∧ (s.retryHold h).1.tb = s.tb ∧ (s.retryHold h).1.cap = s.cap ∧
    (s.retryHold h).1.mgmt = s.mgmt ∧ (s.retryHold h).1.inputs = s.inputs ∧ (s.retryHold h).1.pending = s.pending := by
  simp only [State.retryHold]
  repeat' split
  all_goals simp

/-- Retries change neither the drain engine, the arbiter, the timebase nor the capture unit (R16). -/
@[simp] theorem State.retryAll_frame (l : List Hold) :
    (State.retryAll l s).1.resetLow = s.resetLow ∧ (State.retryAll l s).1.op = s.op ∧
    (State.retryAll l s).1.drain = s.drain ∧ (State.retryAll l s).1.arb = s.arb ∧ (State.retryAll l s).1.tb = s.tb ∧
    (State.retryAll l s).1.cap = s.cap ∧ (State.retryAll l s).1.mgmt = s.mgmt ∧
    (State.retryAll l s).1.inputs = s.inputs ∧ (State.retryAll l s).1.pending = s.pending := by
  induction l generalizing s with
  | nil => simp [State.retryAll]
  | cons h rest ih => simp [State.retryAll, ih]

/-- A retry point changes neither the drain engine, the arbiter nor the timebase (R16). -/
@[simp] theorem State.retryHolds_frame (f : Hold → Bool) :
    (s.retryHolds f).resetLow = s.resetLow ∧ (s.retryHolds f).op = s.op ∧ (s.retryHolds f).drain = s.drain ∧
    (s.retryHolds f).arb = s.arb ∧ (s.retryHolds f).tb = s.tb ∧ (s.retryHolds f).mgmt = s.mgmt ∧
    (s.retryHolds f).inputs = s.inputs ∧ (s.retryHolds f).pending = s.pending := by simp [State.retryHolds]

/-- A staged write reaching the table changes neither the drain engine, the arbiter nor the timebase (R105). -/
@[simp] theorem State.placeHead_frame (p : Port) :
    (s.placeHead p).resetLow = s.resetLow ∧ (s.placeHead p).op = s.op ∧ (s.placeHead p).drain = s.drain ∧
    (s.placeHead p).arb = s.arb ∧ (s.placeHead p).tb = s.tb ∧ (s.placeHead p).mgmt = s.mgmt ∧
    (s.placeHead p).inputs = s.inputs ∧ (s.placeHead p).pending = s.pending := by
  simp only [State.placeHead]
  repeat' split
  all_goals simp

/-- A commit move changes the pool and the groups only (R19). -/
@[simp] theorem State.commitMove_frame (g : GroupId) (n : BitVec 16) :
    (s.commitMove g n).resetLow = s.resetLow ∧ (s.commitMove g n).op = s.op ∧ (s.commitMove g n).windows = s.windows ∧
    (s.commitMove g n).holds = s.holds ∧ (s.commitMove g n).drain = s.drain ∧ (s.commitMove g n).arb = s.arb ∧
    (s.commitMove g n).portA = s.portA ∧ (s.commitMove g n).portB = s.portB ∧ (s.commitMove g n).tb = s.tb ∧
    (s.commitMove g n).cap = s.cap ∧ (s.commitMove g n).ev = s.ev ∧ (s.commitMove g n).mgmt = s.mgmt ∧
    (s.commitMove g n).inputs = s.inputs ∧ (s.commitMove g n).pending = s.pending := by simp [State.commitMove]

/-- A generation joining the drain queue changes the drain engine only (R35). -/
@[simp] theorem State.appendDrain_frame (g : GroupId) (n : BitVec 16) (t : Stamp) :
    (s.appendDrain g n t).resetLow = s.resetLow ∧ (s.appendDrain g n t).op = s.op ∧
    (s.appendDrain g n t).windows = s.windows ∧ (s.appendDrain g n t).pool = s.pool ∧
    (s.appendDrain g n t).holds = s.holds ∧ (s.appendDrain g n t).groups = s.groups ∧
    (s.appendDrain g n t).arb = s.arb ∧ (s.appendDrain g n t).portA = s.portA ∧ (s.appendDrain g n t).portB = s.portB ∧
    (s.appendDrain g n t).tb = s.tb ∧ (s.appendDrain g n t).cap = s.cap ∧ (s.appendDrain g n t).ev = s.ev ∧
    (s.appendDrain g n t).mgmt = s.mgmt ∧ (s.appendDrain g n t).inputs = s.inputs ∧
    (s.appendDrain g n t).pending = s.pending := by simp [State.appendDrain]

/-- The record of an empty commit changes the capture side only (R36). -/
@[simp] theorem State.logEmptyCommit_frame (g : GroupId) (n : BitVec 16) (t : Stamp) :
    (s.logEmptyCommit g n t).resetLow = s.resetLow ∧ (s.logEmptyCommit g n t).op = s.op ∧
    (s.logEmptyCommit g n t).windows = s.windows ∧ (s.logEmptyCommit g n t).pool = s.pool ∧
    (s.logEmptyCommit g n t).holds = s.holds ∧ (s.logEmptyCommit g n t).groups = s.groups ∧
    (s.logEmptyCommit g n t).drain = s.drain ∧ (s.logEmptyCommit g n t).arb = s.arb ∧
    (s.logEmptyCommit g n t).portA = s.portA ∧ (s.logEmptyCommit g n t).portB = s.portB ∧
    (s.logEmptyCommit g n t).tb = s.tb ∧ (s.logEmptyCommit g n t).mgmt = s.mgmt ∧
    (s.logEmptyCommit g n t).inputs = s.inputs ∧ (s.logEmptyCommit g n t).pending = s.pending := by
  unfold State.logEmptyCommit; split <;> simp

/-- Stamping a commit changes the groups only (R35). -/
@[simp] theorem State.stampCommit_frame (g : GroupId) :
    (s.stampCommit g).resetLow = s.resetLow ∧ (s.stampCommit g).op = s.op ∧ (s.stampCommit g).windows = s.windows ∧
    (s.stampCommit g).pool = s.pool ∧ (s.stampCommit g).holds = s.holds ∧ (s.stampCommit g).drain = s.drain ∧
    (s.stampCommit g).arb = s.arb ∧ (s.stampCommit g).portA = s.portA ∧ (s.stampCommit g).portB = s.portB ∧
    (s.stampCommit g).tb = s.tb ∧ (s.stampCommit g).cap = s.cap ∧ (s.stampCommit g).ev = s.ev ∧
    (s.stampCommit g).mgmt = s.mgmt ∧ (s.stampCommit g).inputs = s.inputs ∧ (s.stampCommit g).pending = s.pending := by
  simp [State.stampCommit]

/-- A taken commit changes neither the arbiter nor the timebase (R35). -/
@[simp] theorem State.takeCommit_frame (g : GroupId) :
    (s.takeCommit g).resetLow = s.resetLow ∧ (s.takeCommit g).op = s.op ∧ (s.takeCommit g).arb = s.arb ∧
    (s.takeCommit g).tb = s.tb ∧ (s.takeCommit g).mgmt = s.mgmt ∧ (s.takeCommit g).inputs = s.inputs ∧
    (s.takeCommit g).pending = s.pending := by
  simp only [State.takeCommit]
  split <;> simp

/-- A missed slot changes the groups and the causes only (R37). -/
@[simp] theorem State.missSlot_frame (g : GroupId) :
    (s.missSlot g).resetLow = s.resetLow ∧ (s.missSlot g).op = s.op ∧ (s.missSlot g).windows = s.windows ∧
    (s.missSlot g).pool = s.pool ∧ (s.missSlot g).holds = s.holds ∧ (s.missSlot g).drain = s.drain ∧
    (s.missSlot g).arb = s.arb ∧ (s.missSlot g).portA = s.portA ∧ (s.missSlot g).portB = s.portB ∧
    (s.missSlot g).tb = s.tb ∧ (s.missSlot g).cap = s.cap ∧ (s.missSlot g).mgmt = s.mgmt ∧
    (s.missSlot g).inputs = s.inputs ∧ (s.missSlot g).pending = s.pending := by simp [State.missSlot]

/-- A slot at a group changes neither the arbiter nor the timebase (R34). -/
@[simp] theorem State.slotAt_frame (g : GroupId) :
    (s.slotAt g).resetLow = s.resetLow ∧ (s.slotAt g).op = s.op ∧ (s.slotAt g).arb = s.arb ∧ (s.slotAt g).tb = s.tb ∧
    (s.slotAt g).mgmt = s.mgmt ∧ (s.slotAt g).inputs = s.inputs ∧ (s.slotAt g).pending = s.pending := by
  unfold State.slotAt; split <;> simp

/-- Slots at several groups change neither the arbiter nor the timebase (R34). -/
@[simp] theorem State.slotsAt_frame (l : List GroupId) :
    (s.slotsAt l).resetLow = s.resetLow ∧ (s.slotsAt l).op = s.op ∧ (s.slotsAt l).arb = s.arb ∧
    (s.slotsAt l).tb = s.tb ∧ (s.slotsAt l).mgmt = s.mgmt ∧ (s.slotsAt l).inputs = s.inputs ∧
    (s.slotsAt l).pending = s.pending := by
  induction l generalizing s with
  | nil => simp [State.slotsAt]
  | cons g rest ih => simp [State.slotsAt, ih]

/-- A slot instant changes neither the arbiter nor the timebase (R124). -/
@[simp] theorem State.slotInstant_frame :
    s.slotInstant.resetLow = s.resetLow ∧ s.slotInstant.op = s.op ∧ s.slotInstant.arb = s.arb ∧
    s.slotInstant.tb = s.tb ∧ s.slotInstant.mgmt = s.mgmt ∧ s.slotInstant.inputs = s.inputs ∧
    s.slotInstant.pending = s.pending := by simp [State.slotInstant]

/-- A COMMIT_IN edge changes neither the arbiter nor the timebase (R34). -/
@[simp] theorem State.commitInEdge_frame :
    s.commitInEdge.resetLow = s.resetLow ∧ s.commitInEdge.op = s.op ∧ s.commitInEdge.arb = s.arb ∧
    s.commitInEdge.tb = s.tb ∧ s.commitInEdge.mgmt = s.mgmt ∧ s.commitInEdge.inputs = s.inputs ∧
    s.commitInEdge.pending = s.pending := by simp [State.commitInEdge]

/-- COMMIT_NOW at the groups changes neither the arbiter nor the timebase (R38). -/
@[simp] theorem State.commitNow_frame (l : List GroupId) :
    (State.commitNow l s).1.resetLow = s.resetLow ∧ (State.commitNow l s).1.op = s.op ∧
    (State.commitNow l s).1.arb = s.arb ∧ (State.commitNow l s).1.tb = s.tb ∧ (State.commitNow l s).1.mgmt = s.mgmt ∧
    (State.commitNow l s).1.inputs = s.inputs ∧ (State.commitNow l s).1.pending = s.pending := by
  induction l generalizing s with
  | nil => simp [State.commitNow]
  | cons g rest ih =>
    simp only [State.commitNow]
    repeat' split
    all_goals simp [ih]

/-- ABORT_GROUP changes neither the drain engine, the arbiter nor the timebase (R43). -/
@[simp] theorem State.abortOpen_frame (g : GroupId) :
    (s.abortOpen g).resetLow = s.resetLow ∧ (s.abortOpen g).op = s.op ∧ (s.abortOpen g).drain = s.drain ∧
    (s.abortOpen g).arb = s.arb ∧ (s.abortOpen g).tb = s.tb ∧ (s.abortOpen g).mgmt = s.mgmt ∧
    (s.abortOpen g).inputs = s.inputs ∧ (s.abortOpen g).pending = s.pending := by
  simp only [State.abortOpen]; split <;> simp

/-- An issue changes the pool and the drain engine only (R52). -/
@[simp] theorem State.issueDrain_frame (d : Drain) (i : PoolIndex) :
    (s.issueDrain d i).resetLow = s.resetLow ∧ (s.issueDrain d i).op = s.op ∧ (s.issueDrain d i).windows = s.windows ∧
    (s.issueDrain d i).holds = s.holds ∧ (s.issueDrain d i).groups = s.groups ∧ (s.issueDrain d i).arb = s.arb ∧
    (s.issueDrain d i).portA = s.portA ∧ (s.issueDrain d i).portB = s.portB ∧ (s.issueDrain d i).tb = s.tb ∧
    (s.issueDrain d i).cap = s.cap ∧ (s.issueDrain d i).ev = s.ev ∧ (s.issueDrain d i).mgmt = s.mgmt ∧
    (s.issueDrain d i).inputs = s.inputs ∧ (s.issueDrain d i).pending = s.pending := by simp [State.issueDrain]

/-- Re-evaluating escalation changes the arbiter only (R59). -/
@[simp] theorem State.refreshEscalated_frame :
    s.refreshEscalated.resetLow = s.resetLow ∧ s.refreshEscalated.op = s.op ∧ s.refreshEscalated.windows = s.windows ∧
    s.refreshEscalated.pool = s.pool ∧ s.refreshEscalated.holds = s.holds ∧ s.refreshEscalated.groups = s.groups ∧
    s.refreshEscalated.drain = s.drain ∧ s.refreshEscalated.portA = s.portA ∧ s.refreshEscalated.portB = s.portB ∧
    s.refreshEscalated.tb = s.tb ∧ s.refreshEscalated.cap = s.cap ∧ s.refreshEscalated.ev = s.ev ∧
    s.refreshEscalated.mgmt = s.mgmt ∧ s.refreshEscalated.inputs = s.inputs ∧ s.refreshEscalated.pending = s.pending := by
  simp [State.refreshEscalated]

/-- Re-evaluating COMMIT_BUSY changes the drain engine only (R60). -/
@[simp] theorem State.refreshBusy_frame :
    s.refreshBusy.resetLow = s.resetLow ∧ s.refreshBusy.op = s.op ∧ s.refreshBusy.windows = s.windows ∧
    s.refreshBusy.pool = s.pool ∧ s.refreshBusy.holds = s.holds ∧ s.refreshBusy.groups = s.groups ∧
    s.refreshBusy.arb = s.arb ∧ s.refreshBusy.portA = s.portA ∧ s.refreshBusy.portB = s.portB ∧
    s.refreshBusy.tb = s.tb ∧ s.refreshBusy.cap = s.cap ∧ s.refreshBusy.ev = s.ev ∧ s.refreshBusy.mgmt = s.mgmt ∧
    s.refreshBusy.inputs = s.inputs ∧ s.refreshBusy.pending = s.pending := by simp [State.refreshBusy]

/-- A budget expiry changes the drain engine, the groups, the causes and the arbiter only (R58). -/
@[simp] theorem State.expireBudget_frame (g : GroupId) :
    (s.expireBudget g).resetLow = s.resetLow ∧ (s.expireBudget g).op = s.op ∧ (s.expireBudget g).windows = s.windows ∧
    (s.expireBudget g).pool = s.pool ∧ (s.expireBudget g).holds = s.holds ∧ (s.expireBudget g).portA = s.portA ∧
    (s.expireBudget g).portB = s.portB ∧ (s.expireBudget g).tb = s.tb ∧ (s.expireBudget g).cap = s.cap ∧
    (s.expireBudget g).mgmt = s.mgmt ∧ (s.expireBudget g).inputs = s.inputs ∧ (s.expireBudget g).pending = s.pending := by
  simp only [State.expireBudget]; split <;> simp

/-- Settling an acknowledged entry changes the pool, the groups and the causes only (R21, R54). -/
@[simp] theorem State.settleEntry_frame (g : GroupId) (i : PoolIndex) (t : Status) :
    (s.settleEntry g i t).resetLow = s.resetLow ∧ (s.settleEntry g i t).op = s.op ∧
    (s.settleEntry g i t).windows = s.windows ∧ (s.settleEntry g i t).holds = s.holds ∧
    (s.settleEntry g i t).drain = s.drain ∧ (s.settleEntry g i t).arb = s.arb ∧ (s.settleEntry g i t).portA = s.portA ∧
    (s.settleEntry g i t).portB = s.portB ∧ (s.settleEntry g i t).tb = s.tb ∧ (s.settleEntry g i t).cap = s.cap ∧
    (s.settleEntry g i t).mgmt = s.mgmt ∧ (s.settleEntry g i t).inputs = s.inputs ∧
    (s.settleEntry g i t).pending = s.pending := by
  simp only [State.settleEntry]
  repeat' split
  all_goals simp

/-- Waking the head generation changes the drain engine only (R51). -/
@[simp] theorem State.wakeHead_frame :
    s.wakeHead.resetLow = s.resetLow ∧ s.wakeHead.op = s.op ∧ s.wakeHead.windows = s.windows ∧
    s.wakeHead.pool = s.pool ∧ s.wakeHead.holds = s.holds ∧ s.wakeHead.groups = s.groups ∧ s.wakeHead.arb = s.arb ∧
    s.wakeHead.portA = s.portA ∧ s.wakeHead.portB = s.portB ∧ s.wakeHead.tb = s.tb ∧ s.wakeHead.cap = s.cap ∧
    s.wakeHead.ev = s.ev ∧ s.wakeHead.mgmt = s.mgmt ∧ s.wakeHead.inputs = s.inputs ∧ s.wakeHead.pending = s.pending := by
  
  simp only [State.wakeHead]
  repeat' split
  all_goals simp

/-- Retirement changes the drain engine, the arbiter's escalation and the capture side only (R55). -/
@[simp] theorem State.retire_frame (d : Drain) :
    (s.retire d).resetLow = s.resetLow ∧ (s.retire d).op = s.op ∧ (s.retire d).windows = s.windows ∧
    (s.retire d).pool = s.pool ∧ (s.retire d).holds = s.holds ∧ (s.retire d).groups = s.groups ∧
    (s.retire d).portA = s.portA ∧ (s.retire d).portB = s.portB ∧ (s.retire d).tb = s.tb ∧ (s.retire d).mgmt = s.mgmt ∧
    (s.retire d).inputs = s.inputs ∧ (s.retire d).pending = s.pending := by simp only [State.retire]; split <;> simp

/-- An acknowledgement at the drain engine changes it, escalation and the capture side only (R54). -/
@[simp] theorem State.ackGeneration_frame (t : Status) :
    (s.ackGeneration t).resetLow = s.resetLow ∧ (s.ackGeneration t).op = s.op ∧
    (s.ackGeneration t).windows = s.windows ∧ (s.ackGeneration t).pool = s.pool ∧ (s.ackGeneration t).holds = s.holds ∧
    (s.ackGeneration t).groups = s.groups ∧ (s.ackGeneration t).portA = s.portA ∧ (s.ackGeneration t).portB = s.portB ∧
    (s.ackGeneration t).tb = s.tb ∧ (s.ackGeneration t).mgmt = s.mgmt ∧ (s.ackGeneration t).inputs = s.inputs ∧
    (s.ackGeneration t).pending = s.pending := by
  simp only [State.ackGeneration]
  repeat' split
  all_goals simp

/-- The acknowledgement of a leftover write changes the drain engine only (R61). -/
@[simp] theorem State.ackLeftover_frame :
    s.ackLeftover.resetLow = s.resetLow ∧ s.ackLeftover.op = s.op ∧ s.ackLeftover.windows = s.windows ∧
    s.ackLeftover.pool = s.pool ∧ s.ackLeftover.holds = s.holds ∧ s.ackLeftover.groups = s.groups ∧
    s.ackLeftover.arb = s.arb ∧ s.ackLeftover.portA = s.portA ∧ s.ackLeftover.portB = s.portB ∧
    s.ackLeftover.tb = s.tb ∧ s.ackLeftover.cap = s.cap ∧ s.ackLeftover.ev = s.ev ∧ s.ackLeftover.mgmt = s.mgmt ∧
    s.ackLeftover.inputs = s.inputs ∧ s.ackLeftover.pending = s.pending := by simp [State.ackLeftover]

/-- The acknowledgement of a drain write leaves the operating state, the timebase and the management port (R54). -/
@[simp] theorem State.ackDrain_frame (g : GroupId) (i : PoolIndex) (t : Status) :
    (s.ackDrain g i t).resetLow = s.resetLow ∧ (s.ackDrain g i t).op = s.op ∧ (s.ackDrain g i t).tb = s.tb ∧
    (s.ackDrain g i t).mgmt = s.mgmt ∧ (s.ackDrain g i t).inputs = s.inputs ∧ (s.ackDrain g i t).pending = s.pending := by
  simp only [State.ackDrain]; split <;> simp

/-- RESET_DATAPATH at the staging table changes the pool and the groups only (R23). -/
@[simp] theorem State.discardEntries_frame :
    s.discardEntries.resetLow = s.resetLow ∧ s.discardEntries.op = s.op ∧ s.discardEntries.windows = s.windows ∧
    s.discardEntries.holds = s.holds ∧ s.discardEntries.drain = s.drain ∧ s.discardEntries.arb = s.arb ∧
    s.discardEntries.portA = s.portA ∧ s.discardEntries.portB = s.portB ∧ s.discardEntries.tb = s.tb ∧
    s.discardEntries.cap = s.cap ∧ s.discardEntries.ev = s.ev ∧ s.discardEntries.mgmt = s.mgmt ∧
    s.discardEntries.inputs = s.inputs ∧ s.discardEntries.pending = s.pending := by simp [State.discardEntries]

/-- RESET_DATAPATH at the drain engine changes it and escalation only (R61). -/
@[simp] theorem State.resetDrain_frame :
    s.resetDrain.resetLow = s.resetLow ∧ s.resetDrain.op = s.op ∧ s.resetDrain.windows = s.windows ∧
    s.resetDrain.pool = s.pool ∧ s.resetDrain.holds = s.holds ∧ s.resetDrain.groups = s.groups ∧
    s.resetDrain.portA = s.portA ∧ s.resetDrain.portB = s.portB ∧ s.resetDrain.tb = s.tb ∧ s.resetDrain.cap = s.cap ∧
    s.resetDrain.ev = s.ev ∧ s.resetDrain.mgmt = s.mgmt ∧ s.resetDrain.inputs = s.inputs ∧
    s.resetDrain.pending = s.pending := by simp [State.resetDrain]

/-- Recording a grant changes the arbiter only (R65). -/
@[simp] theorem State.recordGrant_frame (r : Requester) (o : Owner) (q : BusRequest) :
    (s.recordGrant r o q).resetLow = s.resetLow ∧ (s.recordGrant r o q).op = s.op ∧
    (s.recordGrant r o q).windows = s.windows ∧ (s.recordGrant r o q).pool = s.pool ∧
    (s.recordGrant r o q).holds = s.holds ∧ (s.recordGrant r o q).groups = s.groups ∧
    (s.recordGrant r o q).drain = s.drain ∧ (s.recordGrant r o q).portA = s.portA ∧
    (s.recordGrant r o q).portB = s.portB ∧ (s.recordGrant r o q).tb = s.tb ∧ (s.recordGrant r o q).cap = s.cap ∧
    (s.recordGrant r o q).ev = s.ev ∧ (s.recordGrant r o q).mgmt = s.mgmt ∧ (s.recordGrant r o q).inputs = s.inputs ∧
    (s.recordGrant r o q).pending = s.pending := by simp [State.recordGrant]

/-- A grant to a port leaves the staged data and the drain engine (R104). -/
@[simp] theorem State.grantPort_frame (p : Port) :
    (s.grantPort p).resetLow = s.resetLow ∧ (s.grantPort p).op = s.op ∧ (s.grantPort p).pool = s.pool ∧
    (s.grantPort p).holds = s.holds ∧ (s.grantPort p).groups = s.groups ∧ (s.grantPort p).drain = s.drain ∧
    (s.grantPort p).tb = s.tb ∧ (s.grantPort p).mgmt = s.mgmt ∧ (s.grantPort p).inputs = s.inputs ∧
    (s.grantPort p).pending = s.pending := by
  simp only [State.grantPort]
  repeat' split
  all_goals simp

/-- A grant to the drain engine changes the pool, the drain engine and the arbiter only (R52). -/
@[simp] theorem State.grantDrain_frame :
    s.grantDrain.resetLow = s.resetLow ∧ s.grantDrain.op = s.op ∧ s.grantDrain.windows = s.windows ∧
    s.grantDrain.holds = s.holds ∧ s.grantDrain.groups = s.groups ∧ s.grantDrain.portA = s.portA ∧
    s.grantDrain.portB = s.portB ∧ s.grantDrain.tb = s.tb ∧ s.grantDrain.cap = s.cap ∧ s.grantDrain.ev = s.ev ∧
    s.grantDrain.mgmt = s.mgmt ∧ s.grantDrain.inputs = s.inputs ∧ s.grantDrain.pending = s.pending := by
  simp only [State.grantDrain]
  split <;> simp

/-- A grant leaves the operating state, the groups, the holds and the timebase (R64). -/
@[simp] theorem State.grant_frame :
    s.grant.resetLow = s.resetLow ∧ s.grant.op = s.op ∧ s.grant.holds = s.holds ∧ s.grant.groups = s.groups ∧
    s.grant.tb = s.tb ∧ s.grant.mgmt = s.mgmt ∧ s.grant.inputs = s.inputs ∧ s.grant.pending = s.pending := by
  simp only [State.grant]
  repeat' split
  all_goals simp

/-- A memory ERROR answered to an initiator changes the ports and the causes only (R109). -/
@[simp] theorem State.downstreamError_frame (p : Port) (r : BusRequest) :
    (s.downstreamError p r).resetLow = s.resetLow ∧ (s.downstreamError p r).op = s.op ∧
    (s.downstreamError p r).windows = s.windows ∧ (s.downstreamError p r).pool = s.pool ∧
    (s.downstreamError p r).holds = s.holds ∧ (s.downstreamError p r).groups = s.groups ∧
    (s.downstreamError p r).drain = s.drain ∧ (s.downstreamError p r).arb = s.arb ∧ (s.downstreamError p r).tb = s.tb ∧
    (s.downstreamError p r).cap = s.cap ∧ (s.downstreamError p r).mgmt = s.mgmt ∧
    (s.downstreamError p r).inputs = s.inputs ∧ (s.downstreamError p r).pending = s.pending := by
  simp [State.downstreamError]

/-- A memory response routed to a port changes the ports and the capture side only (R104, R106). -/
@[simp] theorem State.routeToPort_frame (p : Port) (t : Status) (m : Lanes) :
    (s.routeToPort p t m).resetLow = s.resetLow ∧ (s.routeToPort p t m).op = s.op ∧
    (s.routeToPort p t m).windows = s.windows ∧ (s.routeToPort p t m).pool = s.pool ∧
    (s.routeToPort p t m).holds = s.holds ∧ (s.routeToPort p t m).groups = s.groups ∧
    (s.routeToPort p t m).drain = s.drain ∧ (s.routeToPort p t m).arb = s.arb ∧ (s.routeToPort p t m).tb = s.tb ∧
    (s.routeToPort p t m).mgmt = s.mgmt ∧ (s.routeToPort p t m).inputs = s.inputs ∧
    (s.routeToPort p t m).pending = s.pending := by
  simp only [State.routeToPort]
  repeat' split
  all_goals simp

/-- A memory response leaves the operating state, the timebase and the management port (R65). -/
@[simp] theorem State.memoryResponse_frame (t : Status) (m : Lanes) :
    (s.memoryResponse t m).resetLow = s.resetLow ∧ (s.memoryResponse t m).op = s.op ∧ (s.memoryResponse t m).tb = s.tb ∧
    (s.memoryResponse t m).mgmt = s.mgmt ∧ (s.memoryResponse t m).inputs = s.inputs ∧
    (s.memoryResponse t m).pending = s.pending := by
  simp only [State.memoryResponse]
  repeat' split
  all_goals simp

/-- An apply changes the groups and the causes only (R127). -/
@[simp] theorem State.evaluateSlotRange_frame :
    s.evaluateSlotRange.resetLow = s.resetLow ∧ s.evaluateSlotRange.op = s.op ∧
    s.evaluateSlotRange.windows = s.windows ∧ s.evaluateSlotRange.pool = s.pool ∧ s.evaluateSlotRange.holds = s.holds ∧
    s.evaluateSlotRange.drain = s.drain ∧ s.evaluateSlotRange.arb = s.arb ∧ s.evaluateSlotRange.portA = s.portA ∧
    s.evaluateSlotRange.portB = s.portB ∧ s.evaluateSlotRange.tb = s.tb ∧ s.evaluateSlotRange.cap = s.cap ∧
    s.evaluateSlotRange.mgmt = s.mgmt ∧ s.evaluateSlotRange.inputs = s.inputs ∧ s.evaluateSlotRange.pending = s.pending := by
  simp only [State.evaluateSlotRange]; split <;> simp

/-- Applying the pending values changes the timebase and the groups only (R123). -/
@[simp] theorem State.applyPending_frame :
    s.applyPending.resetLow = s.resetLow ∧ s.applyPending.op = s.op ∧ s.applyPending.windows = s.windows ∧
    s.applyPending.pool = s.pool ∧ s.applyPending.holds = s.holds ∧ s.applyPending.drain = s.drain ∧
    s.applyPending.arb = s.arb ∧ s.applyPending.portA = s.portA ∧ s.applyPending.portB = s.portB ∧
    s.applyPending.cap = s.cap ∧ s.applyPending.ev = s.ev ∧ s.applyPending.mgmt = s.mgmt ∧
    s.applyPending.inputs = s.inputs ∧ s.applyPending.pending = s.pending := by simp [State.applyPending]

/-- A wrap leaves the operating state, the arbiter and the management port (R123). -/
@[simp] theorem State.wrap_frame :
    s.wrap.resetLow = s.resetLow ∧ s.wrap.op = s.op ∧ s.wrap.arb = s.arb ∧ s.wrap.mgmt = s.mgmt ∧
    s.wrap.inputs = s.inputs ∧ s.wrap.pending = s.pending := by simp only [State.wrap]; split <;> simp

/-- A counter step leaves the operating state, the arbiter and the management port (R117). -/
@[simp] theorem State.counterStep_frame :
    s.counterStep.resetLow = s.resetLow ∧ s.counterStep.op = s.op ∧ s.counterStep.arb = s.arb ∧
    s.counterStep.mgmt = s.mgmt ∧ s.counterStep.inputs = s.inputs ∧ s.counterStep.pending = s.pending := by
  simp only [State.counterStep]; split <;> simp

/-- A natural wrap leaves the operating state, the arbiter and the management port (R123). -/
@[simp] theorem State.naturalWrap_frame :
    s.naturalWrap.resetLow = s.resetLow ∧ s.naturalWrap.op = s.op ∧ s.naturalWrap.arb = s.arb ∧
    s.naturalWrap.mgmt = s.mgmt ∧ s.naturalWrap.inputs = s.inputs ∧ s.naturalWrap.pending = s.pending := by
  simp only [State.naturalWrap]; split <;> simp

/-- A SYNC_IN edge leaves the operating state, the arbiter and the management port (R128). -/
@[simp] theorem State.syncEdge_frame :
    s.syncEdge.resetLow = s.resetLow ∧ s.syncEdge.op = s.op ∧ s.syncEdge.arb = s.arb ∧ s.syncEdge.mgmt = s.mgmt ∧
    s.syncEdge.inputs = s.inputs ∧ s.syncEdge.pending = s.pending := by
  simp only [State.syncEdge]
  repeat' split
  all_goals simp

/-- A microsecond changes the timebase only (R118). -/
@[simp] theorem State.usAdvance_frame :
    s.usAdvance.resetLow = s.resetLow ∧ s.usAdvance.op = s.op ∧ s.usAdvance.windows = s.windows ∧
    s.usAdvance.pool = s.pool ∧ s.usAdvance.holds = s.holds ∧ s.usAdvance.groups = s.groups ∧
    s.usAdvance.drain = s.drain ∧ s.usAdvance.arb = s.arb ∧ s.usAdvance.portA = s.portA ∧ s.usAdvance.portB = s.portB ∧
    s.usAdvance.cap = s.cap ∧ s.usAdvance.ev = s.ev ∧ s.usAdvance.mgmt = s.mgmt ∧ s.usAdvance.inputs = s.inputs ∧
    s.usAdvance.pending = s.pending := by simp [State.usAdvance]

/-- The end of INIT changes the operating state only (R94). -/
@[simp] theorem State.initComplete_frame :
    s.initComplete.resetLow = s.resetLow ∧ s.initComplete.windows = s.windows ∧ s.initComplete.pool = s.pool ∧
    s.initComplete.holds = s.holds ∧ s.initComplete.groups = s.groups ∧ s.initComplete.drain = s.drain ∧
    s.initComplete.arb = s.arb ∧ s.initComplete.portA = s.portA ∧ s.initComplete.portB = s.portB ∧
    s.initComplete.tb = s.tb ∧ s.initComplete.cap = s.cap ∧ s.initComplete.ev = s.ev ∧ s.initComplete.mgmt = s.mgmt ∧
    s.initComplete.inputs = s.inputs ∧ s.initComplete.pending = s.pending := by
  simp only [State.initComplete]; split <;> simp

/-- The expiry of a hold leaves the pool, the drain engine, the arbiter and the timebase (R18). -/
@[simp] theorem State.expireHold_frame (p : Port) :
    (s.expireHold p).resetLow = s.resetLow ∧ (s.expireHold p).op = s.op ∧ (s.expireHold p).pool = s.pool ∧
    (s.expireHold p).drain = s.drain ∧ (s.expireHold p).arb = s.arb ∧ (s.expireHold p).tb = s.tb ∧
    (s.expireHold p).mgmt = s.mgmt ∧ (s.expireHold p).inputs = s.inputs ∧ (s.expireHold p).pending = s.pending := by
  simp only [State.expireHold]
  repeat' split
  all_goals simp

/-- A presented request changes the ports, the windows' counts and the capture side only (R101). -/
@[simp] theorem State.presentRequest_frame (p : Port) (r : BusRequest) :
    (s.presentRequest p r).resetLow = s.resetLow ∧ (s.presentRequest p r).op = s.op ∧
    (s.presentRequest p r).pool = s.pool ∧ (s.presentRequest p r).holds = s.holds ∧
    (s.presentRequest p r).groups = s.groups ∧ (s.presentRequest p r).drain = s.drain ∧
    (s.presentRequest p r).arb = s.arb ∧ (s.presentRequest p r).tb = s.tb ∧ (s.presentRequest p r).mgmt = s.mgmt ∧
    (s.presentRequest p r).inputs = s.inputs ∧ (s.presentRequest p r).pending = s.pending := by
  simp only [State.presentRequest]; split <;> simp

/-- Accepting a waiting request changes the ports, the windows' counts and the capture side only (R101). -/
@[simp] theorem State.acceptWaiting_frame (p : Port) :
    (s.acceptWaiting p).resetLow = s.resetLow ∧ (s.acceptWaiting p).op = s.op ∧ (s.acceptWaiting p).pool = s.pool ∧
    (s.acceptWaiting p).holds = s.holds ∧ (s.acceptWaiting p).groups = s.groups ∧ (s.acceptWaiting p).drain = s.drain ∧
    (s.acceptWaiting p).arb = s.arb ∧ (s.acceptWaiting p).tb = s.tb ∧ (s.acceptWaiting p).mgmt = s.mgmt ∧
    (s.acceptWaiting p).inputs = s.inputs ∧ (s.acceptWaiting p).pending = s.pending := by
  simp only [State.acceptWaiting]
  repeat' split
  all_goals simp

/-- Taking a response changes the ports, the windows' counts and the capture side only (R107). -/
@[simp] theorem State.takeResponse_frame (p : Port) :
    (s.takeResponse p).resetLow = s.resetLow ∧ (s.takeResponse p).op = s.op ∧ (s.takeResponse p).pool = s.pool ∧
    (s.takeResponse p).holds = s.holds ∧ (s.takeResponse p).groups = s.groups ∧ (s.takeResponse p).drain = s.drain ∧
    (s.takeResponse p).arb = s.arb ∧ (s.takeResponse p).tb = s.tb ∧ (s.takeResponse p).mgmt = s.mgmt ∧
    (s.takeResponse p).inputs = s.inputs ∧ (s.takeResponse p).pending = s.pending := by
  simp only [State.takeResponse]; split <;> simp

/-- START_TIMEBASE leaves the operating state, the arbiter and the management port (R121). -/
@[simp] theorem State.startTimebase_frame :
    s.startTimebase.resetLow = s.resetLow ∧ s.startTimebase.op = s.op ∧ s.startTimebase.arb = s.arb ∧
    s.startTimebase.mgmt = s.mgmt ∧ s.startTimebase.inputs = s.inputs ∧ s.startTimebase.pending = s.pending := by
  simp [State.startTimebase]

/-- Discarding a held write changes the ports, the windows' counts and the hold records only (R23). -/
@[simp] theorem State.discardHeld_frame (p : Port) :
    (s.discardHeld p).resetLow = s.resetLow ∧ (s.discardHeld p).op = s.op ∧ (s.discardHeld p).pool = s.pool ∧
    (s.discardHeld p).groups = s.groups ∧ (s.discardHeld p).drain = s.drain ∧ (s.discardHeld p).arb = s.arb ∧
    (s.discardHeld p).tb = s.tb ∧ (s.discardHeld p).cap = s.cap ∧ (s.discardHeld p).ev = s.ev ∧
    (s.discardHeld p).mgmt = s.mgmt ∧ (s.discardHeld p).inputs = s.inputs ∧ (s.discardHeld p).pending = s.pending := by
  simp only [State.discardHeld]
  split <;> simp

/-- Discarding held writes changes the ports, the windows' counts and the hold records only (R23). -/
@[simp] theorem State.discardHolds_frame (l : List Port) :
    (s.discardHolds l).resetLow = s.resetLow ∧ (s.discardHolds l).op = s.op ∧ (s.discardHolds l).pool = s.pool ∧
    (s.discardHolds l).groups = s.groups ∧ (s.discardHolds l).drain = s.drain ∧ (s.discardHolds l).arb = s.arb ∧
    (s.discardHolds l).tb = s.tb ∧ (s.discardHolds l).cap = s.cap ∧ (s.discardHolds l).ev = s.ev ∧
    (s.discardHolds l).mgmt = s.mgmt ∧ (s.discardHolds l).inputs = s.inputs ∧ (s.discardHolds l).pending = s.pending := by
  
  induction l generalizing s with
  | nil => simp [State.discardHolds]
  | cons p rest ih => simp [State.discardHolds, ih]

/-- Marking the writes in passage changes the ports only (R23). -/
@[simp] theorem State.markPassages_frame :
    s.markPassages.resetLow = s.resetLow ∧ s.markPassages.op = s.op ∧ s.markPassages.windows = s.windows ∧
    s.markPassages.pool = s.pool ∧ s.markPassages.holds = s.holds ∧ s.markPassages.groups = s.groups ∧
    s.markPassages.drain = s.drain ∧ s.markPassages.arb = s.arb ∧ s.markPassages.tb = s.tb ∧
    s.markPassages.cap = s.cap ∧ s.markPassages.ev = s.ev ∧ s.markPassages.mgmt = s.mgmt ∧
    s.markPassages.inputs = s.inputs ∧ s.markPassages.pending = s.pending := by simp [State.markPassages]

/-- RESET_DATAPATH leaves the timebase and the management port (R133, R167). -/
@[simp] theorem State.resetDatapath_frame :
    s.resetDatapath.resetLow = s.resetLow ∧ s.resetDatapath.tb = s.tb ∧ s.resetDatapath.mgmt = s.mgmt ∧
    s.resetDatapath.inputs = s.inputs ∧ s.resetDatapath.pending = s.pending := by simp [State.resetDatapath]

/-- A result changes the management port only (R166). -/
@[simp] theorem State.reply_frame (c : ResultCode) (d : List Byte) :
    (s.reply c d).resetLow = s.resetLow ∧ (s.reply c d).op = s.op ∧ (s.reply c d).windows = s.windows ∧
    (s.reply c d).pool = s.pool ∧ (s.reply c d).holds = s.holds ∧ (s.reply c d).groups = s.groups ∧
    (s.reply c d).drain = s.drain ∧ (s.reply c d).arb = s.arb ∧ (s.reply c d).portA = s.portA ∧
    (s.reply c d).portB = s.portB ∧ (s.reply c d).tb = s.tb ∧ (s.reply c d).cap = s.cap ∧ (s.reply c d).ev = s.ev ∧
    (s.reply c d).inputs = s.inputs ∧ (s.reply c d).pending = s.pending := by simp [State.reply]

/-- A refusal changes the management port only (R168). -/
@[simp] theorem State.refuse_frame (c : ResultCode) (n : Nat) :
    (s.refuse c n).resetLow = s.resetLow ∧ (s.refuse c n).op = s.op ∧ (s.refuse c n).windows = s.windows ∧
    (s.refuse c n).pool = s.pool ∧ (s.refuse c n).holds = s.holds ∧ (s.refuse c n).groups = s.groups ∧
    (s.refuse c n).drain = s.drain ∧ (s.refuse c n).arb = s.arb ∧ (s.refuse c n).portA = s.portA ∧
    (s.refuse c n).portB = s.portB ∧ (s.refuse c n).tb = s.tb ∧ (s.refuse c n).cap = s.cap ∧ (s.refuse c n).ev = s.ev ∧
    (s.refuse c n).inputs = s.inputs ∧ (s.refuse c n).pending = s.pending := by simp [State.refuse]

/-- An acceptance without data changes the management port only (R166). -/
@[simp] theorem State.accept_frame :
    s.accept.resetLow = s.resetLow ∧ s.accept.op = s.op ∧ s.accept.windows = s.windows ∧ s.accept.pool = s.pool ∧
    s.accept.holds = s.holds ∧ s.accept.groups = s.groups ∧ s.accept.drain = s.drain ∧ s.accept.arb = s.arb ∧
    s.accept.portA = s.portA ∧ s.accept.portB = s.portB ∧ s.accept.tb = s.tb ∧ s.accept.cap = s.cap ∧
    s.accept.ev = s.ev ∧ s.accept.inputs = s.inputs ∧ s.accept.pending = s.pending := by simp [State.accept]

end Sys2Proof.Machine
end

