-- ==== Sys2Proof/Laws/Changes.lean ====
section
/-! SUPPORT. What a step can do: every step but those of the two RESET_N rows is a chain of the changes below, each with the
guards under which a command makes it. A property that every change keeps is kept by every step. -/

namespace Sys2Proof.Machine

/-- One change of the block, with the conditions under which a command makes it. -/
inductive Change : State → State → Prop
  /-- The result of a frame. -/
  | reply (s : State) (code : ResultCode) (data : List Byte) : Change s (s.reply code data)
  | discardFrame (s : State) (n : Nat) : Change s (s.discardFrame n)
  | listen (s : State) : Change s (s.withMgmt { s.mgmt with listening := true })
  | inputs (s : State) (x : EdgeInputs) : Change s (s.withInputs x)
  | usDivider (s : State) (x : Byte) : Change s (s.withTb { s.tb with usDivider := x })
  | tickDivider (s : State) (x : Byte) : Change s (s.withTb { s.tb with tickDivider := x })
  | usAdvance (s : State) : Change s s.usAdvance
  | initComplete (s : State) : Change s s.initComplete
  | counterStep (s : State) : Change s s.counterStep
  | naturalWrap (s : State) : Change s s.naturalWrap
  | syncEdge (s : State) : Change s s.syncEdge
  | commitInEdge (s : State) : Change s s.commitInEdge
  | expireHold (s : State) (p : Port) : Change s (s.expireHold p)
  | expireBudget (s : State) (g : GroupId) : Change s (s.expireBudget g)
  | presentRequest (s : State) (p : Port) (r : BusRequest) (h : r.wellFormed = true) : Change s (s.presentRequest p r)
  | placeHead (s : State) (p : Port) : Change s (s.placeHead p)
  | grant (s : State) : Change s s.grant
  | memoryResponse (s : State) (status : Status) (memory : Lanes) : Change s (s.memoryResponse status memory)
  | takeResponse (s : State) (p : Port) : Change s (s.takeResponse p)
  | refFreq (s : State) (v : Byte) (lo : 10 ≤ v.toNat) (hi : v.toNat ≤ 200) :
      Change s (s.withTb { s.tb with refFreq := v })
  | writePrescale (s : State) (v : Byte) : Change s (s.withTb (s.tb.writePrescale v))
  | writePeriod (s : State) (v : BitVec 16) (h : 2 ≤ v.toNat) : Change s (s.writePeriod v)
  | syncEnable (s : State) (v : Bool) : Change s (s.withTb { s.tb with syncEnable := v })
  | grantPolicy (s : State) (v : GrantPolicy) : Change s (s.withArb { s.arb with policy := v })
  | threshold (s : State) (v : Byte) (lo : 1 ≤ v.toNat) (hi : v.toNat ≤ 32) :
      Change s (s.withCap { s.cap with threshold := v }).refreshReady
  | groupOn (s : State) (g : GroupId) : Change s (s.withGroup g { s.group g with enabled := true })
  | groupOff (s : State) (g : GroupId) (h : s.windows.any (·.names g) = false) :
      Change s (s.withGroup g { s.group g with enabled := false })
  | trigger (s : State) (g : GroupId) (v : TriggerSource) : Change s (s.withGroup g { s.group g with trigger := v })
  | writeSlotOffset (s : State) (g : GroupId) (v : BitVec 16) : Change s (s.writeSlotOffset g v)
  | mode (s : State) (g : GroupId) (v : GroupMode) (h : (s.group g).isQuiet = true) :
      Change s (s.withGroup g { s.group g with mode := v })
  | policy (s : State) (g : GroupId) (v : FullPolicy) (h : (s.group g).isQuiet = true) :
      Change s (s.withGroup g { s.group g with policy := v })
  | entryLimit (s : State) (g : GroupId) (v : Byte) (h : (s.group g).isQuiet = true) (lo : 1 ≤ v.toNat)
      (hi : v.toNat ≤ 64) : Change s (s.withGroup g { s.group g with entryLimit := v })
  | holdLimit (s : State) (g : GroupId) (v : BitVec 12) : Change s (s.withGroup g { s.group g with holdLimit := v })
  | drainBudget (s : State) (g : GroupId) (v : BitVec 12) : Change s (s.withGroup g { s.group g with drainBudget := v })
  | logCommits (s : State) (g : GroupId) (v : Bool) : Change s (s.withGroup g { s.group g with logCommits := v })
  | channelEnabled (s : State) (c : ChannelId) (v : Bool) : Change s (s.withChannel c ((s.channel c).writeEnabled v))
  | direction (s : State) (c : ChannelId) (v : Direction) : Change s (s.withChannel c { s.channel c with direction := v })
  | channelPrescale (s : State) (c : ChannelId) (v : Byte) :
      Change s (s.withChannel c { s.channel c with prescale := v, prescaleCount := 0 })
  | gate (s : State) (c : ChannelId) (v : Bool) : Change s (s.withChannel c ((s.channel c).writeGate v))
  | rearmSetting (s : State) (c : ChannelId) (v : Bool) :
      Change s (s.withChannel c { s.channel c with rearmAtWrap := v })
  | matching (s : State) (c : ChannelId) (value mask : Lanes) :
      Change s (s.withChannel c { s.channel c with matchValue := value, matchMask := mask })
  | recordData (s : State) (c : ChannelId) (v : Bool) : Change s (s.withChannel c { s.channel c with recordData := v })
  | putWindow (s : State) (w : WindowId) (base limit : Address) (ports : PortSet) (cls : WindowClass)
      (channel : Option ChannelId) (off : (s.window w).enabled = false) (hb : base.toNat % 4096 = 0)
      (hl : limit.toNat % 4096 = 0) (hle : base.toNat ≤ limit.toNat) (hp : ports ≠ 0) :
      Change s (s.withWindow w
        { s.window w with base := base, limit := limit, ports := ports, cls := cls, channel := channel })
  | enableWindow (s : State) (w : WindowId) (clear : s.conflictingWindow w = none) (named : s.groupMissing w = false) :
      Change s (s.withWindow w { s.window w with enabled := true })
  | disableWindow (s : State) (w : WindowId) : Change s (s.withWindow w { s.window w with enabled := false })
  | pop (s : State) (r : StoredRecord) (rest : List StoredRecord) (h : s.cap.queue = r :: rest) :
      Change s (s.withCap { s.cap with queue := rest }).refreshReady
  | commitNow (s : State) (groups : List GroupId) : Change s (State.commitNow groups s).1
  | abortOpen (s : State) (g : GroupId) : Change s (s.abortOpen g)
  | rearm (s : State) (set : BitVec 4) : Change s (s.withCap { s.cap with
      channels := Vector.ofFn fun c => if set.getLsbD c then (s.channel c).rearmed else s.channel c })
  | startTimebase (s : State) (h : s.tb.running = false) : Change s s.startTimebase
  | stopTimebase (s : State) : Change s (s.withTb { s.tb with running := false })
  | enableBridge (s : State) (h : s.op ≠ .init) : Change s (s.withOp .active)
  | disableBridge (s : State) (h : s.op ≠ .init) : Change s (s.withOp .bypass)
  | resetDatapath (s : State) (h : s.op ≠ .init) : Change s s.resetDatapath
  | clearCauses (s : State) (named : CauseSet) : Change s (s.withEv (s.ev.clear named))
  | setEnables (s : State) (set : CauseSet) : Change s (s.withEv (s.ev.enable set))

/-- A chain of changes. -/
abbrev Changes : State → State → Prop := Relation.ReflTransGen Change

/-- One change and the result of its frame. -/
theorem Change.thenReply {s t : State} (h : Change s t) (code : ResultCode) (data : List Byte) :
    Changes s (t.reply code data) := .tail (.single h) (.reply t code data)

/-- A reply is a chain of one change. -/
theorem Changes.ofReply (s : State) (code : ResultCode) (data : List Byte) : Changes s (s.reply code data) :=
  .single (.reply s code data)

/-- While RESET_N is low nothing changes, and otherwise a row makes the changes it is made of. -/
theorem Changes.awake {f : State → State} {s : State} (h : Changes s (f s)) : Changes s (s.awake f) := by
  unfold State.awake; split
  · exact .refl
  · exact h

/-- The same for one change. -/
theorem Change.awake {f : State → State} {s : State} (h : Change s (f s)) : Changes s (s.awake f) :=
  Changes.awake (.single h)

theorem Change.onEdge {f : State → State} {s : State} (line : EdgeInput) (h : Change s (f s)) :
    Changes s (s.onEdge line f) := by
  refine Changes.awake ?_
  split
  · exact .single h
  · exact .refl

/-- A frame the port does not hear only makes it listen, and otherwise a frame makes the changes it is made of. -/
theorem Changes.hearing {f : State → State} {s : State} (h : Changes s (f s)) : Changes s (s.hearing f) := by
  refine Changes.awake ?_
  split
  · exact h
  · exact .single (.listen s)

/-- The same for one change. -/
theorem Change.hearing {f : State → State} {s : State} (h : Change s (f s)) : Changes s (s.hearing f) :=
  Changes.hearing (.single h)

theorem Changes.unlessInit {f : State → State} {s : State} (n : Nat) (h : s.op ≠ .init → Changes s (f s)) :
    Changes s (s.unlessInit n f) := by
  unfold State.unlessInit; split
  · exact .ofReply _ _ _
  · rename_i hi; exact h hi

/-- A PUT_SETTING of a global item changes what its owner changes. -/
theorem Changes.putGlobal {α : Type} {owner : α → State → State} {s : State} (index : Byte) (arg : Option α)
    (h : ∀ v, arg = some v → Changes s (owner v s)) : Changes s (s.putGlobal index arg owner) := by
  refine Changes.unlessInit 0 fun _ => ?_
  split
  · exact .ofReply _ _ _
  · split
    · exact .ofReply _ _ _
    · exact h _ rfl

/-- A PUT_SETTING of a group or channel item changes what its owner changes. -/
theorem Changes.putIndexed {α : Type} {owner : Fin 4 → α → State → State} {s : State} (index : Byte) (arg : Option α)
    (h : ∀ n v, arg = some v → Changes s (owner n v s)) : Changes s (s.putIndexed index arg owner) := by
  refine Changes.unlessInit 0 fun _ => ?_
  split
  · exact h _ _ rfl
  · exact .ofReply _ _ _

theorem argPage_spec {a : BitVec 40} {x : Address} (h : argPage a = some x) : x.toNat % 4096 = 0 ∧ x.toNat = a.toNat := by
  unfold argPage argAddress at h
  split at h
  · rename_i hx
    split at hx
    · cases hx
      split at h
      · cases h
        refine ⟨by assumption, ?_⟩
        simp; omega
      · cases h
    · cases hx
  · cases h

theorem argPorts_spec {b : Byte} {x : PortSet} (h : argPorts b = some x) : x ≠ 0 ∧ x.toNat = b.toNat := by
  unfold argPorts at h
  split at h
  · cases h
    have : (b.setWidth 2).toNat = b.toNat := by simp; omega
    refine ⟨fun h0 => ?_, this⟩
    rw [h0] at this; simp at this; omega
  · cases h

theorem argRange_spec {lo hi : Nat} {b v : Byte} (h : argRange lo hi b = some v) : lo ≤ v.toNat ∧ v.toNat ≤ hi ∧ v = b := by
  unfold argRange at h
  split at h
  · cases h; rename_i hh; exact ⟨hh.1, hh.2, rfl⟩
  · cases h

theorem argPeriod_spec {v x : BitVec 16} (h : argPeriod v = some x) : 2 ≤ x.toNat ∧ x = v := by
  unfold argPeriod at h
  split at h
  · cases h; rename_i hh; exact ⟨hh, rfl⟩
  · cases h

/-- What the fields of an accepted PUT_WINDOW satisfy (R86, R174). -/
theorem windowFields_spec {base limit : BitVec 40} {ps cls g v cp cc : Byte} {b l : Address} {ports : PortSet}
    {c : WindowClass} {ch : Option ChannelId} (h : windowFields base limit ps cls g v cp cc = some (b, l, ports, c, ch)) :
    b.toNat % 4096 = 0 ∧ l.toNat % 4096 = 0 ∧ b.toNat ≤ l.toNat ∧ ports ≠ 0 := by
  unfold windowFields at h
  split at h
  · rename_i hb hl hp _ _
    split at h
    · rename_i hle
      cases h
      exact ⟨(argPage_spec hb).1, (argPage_spec hl).1, hle, (argPorts_spec hp).1⟩
    · cases h
  · cases h

/-- What an accepted or refused PUT_SETTING of a quiet group's item changes (R29). -/
theorem Changes.setQuietGroup {α : Type} (f : α → Group → Group) (g : GroupId) (v : α) (s : State)
    (h : (s.group g).isQuiet = true → Change s (s.withGroup g (f v (s.group g)))) : Changes s (s.setQuietGroup f g v) := by
  unfold State.setQuietGroup
  split
  · rename_i hq; exact (h hq).thenReply _ _
  · exact .ofReply _ _ _

/-- Every command but the two RESET_N rows makes a chain of changes. -/
theorem exec_changes (c : Instr) (s t : State) (h : exec c s = .next t) (h1 : c ≠ .resetNAssert) (h2 : c ≠ .resetNRelease) :
    Changes s t := by
  cases c
  case resetNAssert => exact absurd rfl h1
  case resetNRelease => exact absurd rfl h2
  case initComplete => cases h; exact Change.awake (.initComplete s)
  case usClockAdvance => cases h; exact Change.awake (.usAdvance s)
  case counterStep => cases h; exact Change.awake (.counterStep s)
  case naturalWrap => cases h; exact Change.awake (.naturalWrap s)
  case syncInEdge => cases h; exact Change.onEdge _ (.syncEdge s)
  case commitInEdge => cases h; exact Change.onEdge _ (.commitInEdge s)
  case holdLimitExpiry p => cases h; exact Change.awake (.expireHold s p)
  case drainBudgetExpiry g => cases h; exact Change.awake (.expireBudget s g)
  case requestAccept p r =>
    simp only [exec, execRequestAccept] at h
    split at h
    · rename_i hw; cases h; exact Change.awake (.presentRequest s p r hw)
    · cases h
  case stagedWritePlacement p => cases h; exact Change.awake (.placeHead s p)
  case grant => cases h; exact Change.awake (.grant s)
  case memoryResponse st d _ => cases h; exact Change.awake (.memoryResponse s st d)
  case responseTaken p => cases h; exact Change.awake (.takeResponse s p)
  case partialFrame n => cases h; exact Change.hearing (.discardFrame s n)
  case unknownCommand b =>
    simp only [exec, execUnknownCommand] at h
    split at h
    · cases h
    · cases h; exact Change.hearing (.reply s _ _)
  case getSetting =>
    cases h; refine Changes.hearing (.unlessInit _ fun _ => ?_); split <;> exact .ofReply _ _ _
  case putSettingReferenceFrequency =>
    cases h
    exact Changes.hearing (.putGlobal _ _ fun v hv =>
      (Change.refFreq s v (argRange_spec hv).1 (argRange_spec hv).2.1).thenReply _ _)
  case putSettingTimebasePrescale =>
    cases h; exact Changes.hearing (.putGlobal _ _ fun v _ => (Change.writePrescale s v).thenReply _ _)
  case putSettingPeriod =>
    cases h
    exact Changes.hearing (.putGlobal _ _ fun v hv => (Change.writePeriod s v (argPeriod_spec hv).1).thenReply _ _)
  case putSettingSyncEnable =>
    cases h; exact Changes.hearing (.putGlobal _ _ fun v _ => (Change.syncEnable s v).thenReply _ _)
  case putSettingGrantPolicy =>
    cases h; exact Changes.hearing (.putGlobal _ _ fun v _ => (Change.grantPolicy s v).thenReply _ _)
  case putSettingCaptureThreshold =>
    cases h
    exact Changes.hearing (.putGlobal _ _ fun v hv =>
      (Change.threshold s v (argRange_spec hv).1 (argRange_spec hv).2.1).thenReply _ _)
  case putSettingGroupEnabled =>
    cases h
    refine Changes.hearing (.putIndexed _ _ fun n v _ => ?_)
    unfold State.writeGroupEnabled
    repeat' split
    · exact (Change.groupOn s n).thenReply _ _
    · exact .ofReply _ _ _
    · exact .ofReply _ _ _
    · rename_i hn; exact (Change.groupOff s n (by simpa using hn)).thenReply _ _
  case putSettingTriggerSource =>
    cases h; exact Changes.hearing (.putIndexed _ _ fun n v _ => (Change.trigger s n v).thenReply _ _)
  case putSettingSlotOffset =>
    cases h; exact Changes.hearing (.putIndexed _ _ fun n v _ => (Change.writeSlotOffset s n v).thenReply _ _)
  case putSettingMode =>
    cases h; exact Changes.hearing (.putIndexed _ _ fun n v _ => .setQuietGroup _ n v s fun hq => .mode s n v hq)
  case putSettingFullPolicy =>
    cases h; exact Changes.hearing (.putIndexed _ _ fun n v _ => .setQuietGroup _ n v s fun hq => .policy s n v hq)
  case putSettingEntryLimit =>
    cases h
    exact Changes.hearing (.putIndexed _ _ fun n v hv => .setQuietGroup _ n v s fun hq =>
      .entryLimit s n v hq (argRange_spec hv).1 (argRange_spec hv).2.1)
  case putSettingHoldLimit =>
    cases h; exact Changes.hearing (.putIndexed _ _ fun n v _ => (Change.holdLimit s n v).thenReply _ _)
  case putSettingDrainBudget =>
    cases h; exact Changes.hearing (.putIndexed _ _ fun n v _ => (Change.drainBudget s n v).thenReply _ _)
  case putSettingLogCommits =>
    cases h; exact Changes.hearing (.putIndexed _ _ fun n v _ => (Change.logCommits s n v).thenReply _ _)
  case putSettingChannelEnabled =>
    cases h; exact Changes.hearing (.putIndexed _ _ fun n v _ => (Change.channelEnabled s n v).thenReply _ _)
  case putSettingDirection =>
    cases h; exact Changes.hearing (.putIndexed _ _ fun n v _ => (Change.direction s n v).thenReply _ _)
  case putSettingChannelPrescale =>
    cases h; exact Changes.hearing (.putIndexed _ _ fun n v _ => (Change.channelPrescale s n v).thenReply _ _)
  case putSettingGate =>
    cases h; exact Changes.hearing (.putIndexed _ _ fun n v _ => (Change.gate s n v).thenReply _ _)
  case putSettingRearmAtWrap =>
    cases h; exact Changes.hearing (.putIndexed _ _ fun n v _ => (Change.rearmSetting s n v).thenReply _ _)
  case putSettingMatch =>
    cases h; exact Changes.hearing (.putIndexed _ _ fun n v _ => (Change.matching s n v.1 v.2).thenReply _ _)
  case putSettingRecordData =>
    cases h; exact Changes.hearing (.putIndexed _ _ fun n v _ => (Change.recordData s n v).thenReply _ _)
  case putWindow =>
    cases h
    refine Changes.hearing (.unlessInit _ fun _ => ?_)
    split
    · rename_i hf
      split
      · exact .ofReply _ _ _
      · rename_i hoff
        obtain ⟨hb, hl, hle, hp⟩ := windowFields_spec hf
        exact (Change.putWindow s _ _ _ _ _ _ (by simpa using hoff) hb hl hle hp).thenReply _ _
    · exact .ofReply _ _ _
  case enableWindow =>
    cases h
    refine Changes.hearing (.unlessInit _ fun _ => ?_)
    repeat' split
    · exact .ofReply _ _ _
    · exact .ofReply _ _ _
    · exact .ofReply _ _ _
    · exact .ofReply _ _ _
    · rename_i hc hm; exact (Change.enableWindow s _ hc (by simpa using hm)).thenReply _ _
  case disableWindow =>
    cases h
    refine Changes.hearing (.unlessInit _ fun _ => ?_)
    repeat' split
    · exact .ofReply _ _ _
    · exact .ofReply _ _ _
    · exact .ofReply _ _ _
    · exact (Change.disableWindow s _).thenReply _ _
  case readWindow => cases h; refine Changes.hearing (.unlessInit _ fun _ => ?_); split <;> exact .ofReply _ _ _
  case readStatus => cases h; refine Changes.hearing ?_; split <;> exact .ofReply _ _ _
  case readEntry => cases h; refine Changes.hearing (.unlessInit _ fun _ => ?_); split <;> exact .ofReply _ _ _
  case popCapture =>
    cases h
    refine Changes.hearing (.unlessInit _ fun _ => ?_)
    unfold State.popCapture
    split
    · exact .ofReply _ _ _
    · rename_i hq; exact (Change.pop s _ _ hq).thenReply _ _
  case commitNow =>
    cases h
    refine Changes.hearing ?_
    repeat' split
    · exact .ofReply _ _ _
    · exact .ofReply _ _ _
    · exact (Change.commitNow s _).thenReply _ _
    · exact .ofReply _ _ _
  case abortGroup =>
    cases h
    refine Changes.hearing ?_
    repeat' split
    · exact .ofReply _ _ _
    · exact .ofReply _ _ _
    · exact (Change.abortOpen s _).thenReply _ _
  case rearm =>
    cases h
    refine Changes.hearing ?_
    repeat' split
    · exact .ofReply _ _ _
    · exact .ofReply _ _ _
    · exact .ofReply _ _ _
    · exact (Change.rearm s _).thenReply _ _
  case startTimebase =>
    cases h
    refine Changes.hearing (.unlessInit _ fun _ => ?_)
    split
    · exact .ofReply _ _ _
    · rename_i hr; exact (Change.startTimebase s (by simpa using hr)).thenReply _ _
  case stopTimebase =>
    cases h; exact Changes.hearing (.unlessInit _ fun _ => (Change.stopTimebase s).thenReply _ _)
  case enableBridge =>
    cases h; exact Changes.hearing (.unlessInit _ fun hi => (Change.enableBridge s hi).thenReply _ _)
  case disableBridge =>
    cases h
    refine Changes.hearing (.unlessInit _ fun hi => ?_)
    split
    · exact .ofReply _ _ _
    · exact (Change.disableBridge s hi).thenReply _ _
  case resetDatapath =>
    cases h; exact Changes.hearing (.unlessInit _ fun hi => (Change.resetDatapath s hi).thenReply _ _)
  case clearCauses =>
    cases h
    refine Changes.hearing (.unlessInit _ fun _ => ?_)
    split
    · exact .ofReply _ _ _
    · exact (Change.clearCauses s _).thenReply _ _
  case setEnables =>
    cases h
    refine Changes.hearing (.unlessInit _ fun _ => ?_)
    split
    · exact .ofReply _ _ _
    · exact (Change.setEnables s _).thenReply _ _
  case readIdentity => cases h; exact Change.hearing (.reply s _ _)
  case putSettingUnknownItem =>
    simp only [exec, execPutSettingUnknownItem] at h
    split at h
    · cases h
    · cases h; exact Changes.hearing (.unlessInit _ fun _ => .ofReply _ _ _)

/-- What a condition brings about is a chain of changes, when it is one where it comes about. -/
theorem Changes.ifDue {f : State → State} {s t : State} (due : Bool) (h : Changes s t) (hf : Changes t (f t)) :
    Changes s (t.ifDue due f) := by
  unfold State.ifDue; split
  · exact h.trans hf
  · exact h

/-- One period of REFCLK is a chain of changes. -/
theorem refclkPeriod_changes (s : State) : Changes s s.refclkPeriod := by
  refine Changes.awake (.ifDue _ (.ifDue _ (.ifDue _ (.ifDue _ ?_ ?_) ?_) (.single (.syncEdge _)))
    (.single (.commitInEdge _)))
  · exact .tail (.tail (.single (.usDivider s (if s.microsecondEnds then 0 else s.tb.usDivider + 1)))
      (.tickDivider _ (if s.tickEnds then 0 else if s.tb.running then s.tb.tickDivider + 1 else s.tb.tickDivider)))
      (.inputs _ s.inputs.sampled)
  · refine .trans (.tail (.single (.usAdvance _)) (.initComplete _)) ?_
    generalize (State.usAdvance _).initComplete = u
    unfold State.dueExpiries
    have h : ∀ (gs : List GroupId) (v : State), Changes v (gs.foldl (fun t g => t.expireBudget g) v) := by
      intro gs
      induction gs with
      | nil => exact fun v => .refl
      | cons g gs ih => exact fun v => .trans (.single (.expireBudget v g)) (ih _)
    exact .trans (.tail (.single (.expireHold u .a)) (.expireHold _ .b)) (h _ _)
  · split
    · exact .single (.counterStep _)
    · exact .single (.naturalWrap _)

/-- A property that every change keeps is kept by every step, when it does not speak of the queue of waiting commands and
holds of every block in its starting state. -/
theorem step_keeps (P : State → Prop) (queue : ∀ s x, P s → P { s with pending := x })
    (reset : ∀ (s : State) low listening, P (s.startingState low listening)) (change : ∀ s t, P s → Change s t → P t) :
    ∀ s t, P s → step s = .next t → P t := by
  have chain : ∀ s t, Changes s t → P s → P t := fun s t h hs => by
    induction h with
    | refl => exact hs
    | tail _ hc ih => exact change _ _ ih hc
  intro s t hs h
  unfold step at h
  split at h
  · cases h; exact chain _ _ (refclkPeriod_changes s) hs
  · rename_i c rest _
    by_cases h1 : c = .resetNAssert
    · subst h1; cases h; exact reset _ _ _
    · by_cases h2 : c = .resetNRelease
      · subst h2
        cases h
        split
        · exact reset _ _ _
        · exact queue _ _ hs
      · exact chain _ _ (exec_changes c _ t h h1 h2) (queue _ _ hs)

end Sys2Proof.Machine
end

