-- ==== Sys2Proof/Laws/Queues.lean ====
section
/-! SUPPORT. The request queues: the oldest request a test finds, its progress replaced, and what moving on does to a port:
only requests that were BEHIND go on, and of the counts only the forwarded reads rise. -/

namespace Sys2Proof.Machine

/-! ## The oldest request a test finds -/

/-- The oldest request of a list whose progress meets a test, with everything before it failing the test. -/
theorem find_split {test : Progress → Bool} {q : List QueuedRequest} {r : QueuedRequest}
    (h : q.find? (fun x => test x.progress) = some r) :
    ∃ pre post, q = pre ++ r :: post ∧ test r.progress = true ∧ ∀ x ∈ pre, test x.progress = false := by
  obtain ⟨hr, pre, post, hq, hpre⟩ := List.find?_eq_some_iff_append.mp h
  exact ⟨pre, post, hq, hr, fun x hx => by simpa using hpre x hx⟩

theorem find_of_split {test : Progress → Bool} {pre post : List QueuedRequest} {r : QueuedRequest}
    (hr : test r.progress = true) (hpre : ∀ x ∈ pre, test x.progress = false) :
    (pre ++ r :: post).find? (fun x => test x.progress) = some r :=
  List.find?_eq_some_iff_append.mpr ⟨hr, pre, post, rfl, fun x hx => by simpa using hpre x hx⟩

/-- The progress of the oldest request a test finds replaced: everything before and behind it stands. -/
theorem setFirst_of_split {test : Progress → Bool} {pre post : List QueuedRequest} {r : QueuedRequest} (new : Progress)
    (hr : test r.progress = true) (hpre : ∀ x ∈ pre, test x.progress = false) :
    setFirst test new (pre ++ r :: post) = pre ++ { r with progress := new } :: post := by
  induction pre with
  | nil => simp [setFirst, hr]
  | cons x pre ih =>
    have hx := hpre x (by simp)
    simp [setFirst, hx, ih fun y hy => hpre y (by simp [hy])]

/-- Where no request meets the test nothing changes. -/
theorem setFirst_of_none {test : Progress → Bool} {q : List QueuedRequest} (new : Progress)
    (h : ∀ x ∈ q, test x.progress = false) : setFirst test new q = q := by
  induction q with
  | nil => rfl
  | cons x q ih => simp [setFirst, h x (by simp), ih fun y hy => h y (by simp [hy])]

@[simp] theorem setFirst_requests (test : Progress → Bool) (new : Progress) (q : List QueuedRequest) :
    (setFirst test new q).map (·.request) = q.map (·.request) := by
  induction q with
  | nil => rfl
  | cons x q ih => unfold setFirst; split <;> simp [ih]

@[simp] theorem setFirst_length (test : Progress → Bool) (new : Progress) (q : List QueuedRequest) :
    (setFirst test new q).length = q.length := by
  induction q with
  | nil => rfl
  | cons x q ih => unfold setFirst; split <;> simp [ih]

section
variable (s : State)

/-- The queue of a port after the progress of a request is replaced, and of the other port. -/
theorem State.progressFirst_port (p q : Port) (test : Progress → Bool) (new : Progress) :
    (s.progressFirst p test new).port q =
      if q = p then { s.port p with queue := setFirst test new (s.port p).queue } else s.port q := by
  cases p <;> cases q <;> simp [State.progressFirst, State.port, State.withPort]

/-- The port after its counts are changed, and the other port. -/
theorem State.countPort_port (p q : Port) (f : PortCounts → PortCounts) :
    (s.countPort p f).port q = if q = p then { s.port p with counts := f (s.port p).counts } else s.port q := by
  cases p <;> cases q <;> simp [State.countPort, State.port, State.withPort]

/-- The port after an error is recorded, and the other port (R110, R111). -/
theorem State.recordError_port (p q : Port) (reason : ErrorReason) (r : BusRequest) :
    (s.recordError p reason r).port q =
      if q = p then { s.port p with
        lastError := some ⟨reason, r.kind, r.word, r.tag, s.now⟩
        counts := (s.port p).counts.withError reason } else s.port q := by
  cases p <;> cases q <;> simp [State.recordError, State.port, State.withPort]

theorem State.port_of_ports {s t : State} (ha : t.portA = s.portA) (hb : t.portB = s.portB) (q : Port) :
    t.port q = s.port q := by cases q <;> assumption

@[simp] theorem State.hitFor_port (p q : Port) (r : BusRequest) (cls : Classification) (m : LaneSet) (d : Lanes) (e : Bool) :
    (s.hitFor p r cls m d e).port q = s.port q := State.port_of_ports (by simp) (by simp) q

@[simp] theorem State.passage_port (w : Option WindowId) (f : Nat → Nat) (q : Port) : (s.passage w f).port q = s.port q :=
  State.port_of_ports (by simp) (by simp) q

@[simp] theorem State.raise_port (c : Cause) (q : Port) : (s.raise c).port q = s.port q :=
  State.port_of_ports (by simp) (by simp) q

@[simp] theorem State.withGroup_port (g : GroupId) (x : Group) (q : Port) : (s.withGroup g x).port q = s.port q :=
  State.port_of_ports (by simp) (by simp) q

@[simp] theorem State.countGroup_port (g : GroupId) (f : GroupCounts → GroupCounts) (q : Port) :
    (s.countGroup g f).port q = s.port q := State.port_of_ports (by simp) (by simp) q

@[simp] theorem State.place_port (p q : Port) (g : GroupId) (w : WordIndex) (m : LaneSet) (d : Lanes) :
    (s.place p g w m d).1.port q = s.port q := State.port_of_ports (by simp) (by simp) q

@[simp] theorem State.dropHold_port (p q : Port) : (s.dropHold p).port q = s.port q :=
  State.port_of_ports (by simp) (by simp) q

/-- The port of a placed write, and the other port (R105). -/
theorem State.answerPlaced_port (p q : Port) (cls : Classification) (merged : Bool) :
    (s.answerPlaced p cls merged).port q =
      if q = p then { s.port p with
        queue := setFirst Progress.isHead (.answered ⟨.okay, none⟩) (s.port p).queue
        counts := { (s.port p).counts with
          stagedPlaced := (s.port p).counts.stagedPlaced + 1
          merged := if merged then (s.port p).counts.merged + 1 else (s.port p).counts.merged } }
      else s.port q := by
  simp only [State.answerPlaced, State.passage_port, State.countPort_port, State.progressFirst_port]
  split <;> simp

/-- The port of a write answered ERROR at the head, and the other port (R105, R110, R111). -/
theorem State.answerRefused_port (p q : Port) (cls : Classification) (r : BusRequest) (reason : ErrorReason) :
    (s.answerRefused p cls r reason).port q =
      if q = p then { s.port p with
        queue := setFirst Progress.isHead (.answered ⟨.error, none⟩) (s.port p).queue
        lastError := some ⟨reason, r.kind, r.word, r.tag, s.now⟩
        counts := (s.port p).counts.withError reason }
      else s.port q := by
  simp only [State.answerRefused, State.passage_port, State.recordError_port, State.progressFirst_port]
  split <;> simp [State.now]

/-! ## Moving on -/

/-- What moving on does to a port: requests that are not BEHIND stand as they are, requests keep their places, and only the
count of forwarded reads changes (R102, R103). -/
structure PortState.MovesOn (before after : PortState) : Prop where
  queue : List.Forall₂ (fun x y => y.request = x.request ∧ (x.progress.isBehind = false → y = x)) before.queue after.queue
  waiting : after.waiting = before.waiting
  lastError : after.lastError = before.lastError
  counts : ∃ n, after.counts = { before.counts with forwarded := before.counts.forwarded + n }

theorem PortState.MovesOn.refl (p : PortState) : p.MovesOn p where
  queue := List.forall₂_same.mpr fun x _ => ⟨rfl, fun _ => rfl⟩
  waiting := rfl
  lastError := rfl
  counts := ⟨0, by simp⟩

theorem PortState.MovesOn.trans {a b c : PortState} (h : a.MovesOn b) (k : b.MovesOn c) : a.MovesOn c where
  queue := by
    have comp : ∀ {x y z : List QueuedRequest},
        List.Forall₂ (fun x y : QueuedRequest => y.request = x.request ∧ (x.progress.isBehind = false → y = x)) x y →
        List.Forall₂ (fun x y : QueuedRequest => y.request = x.request ∧ (x.progress.isBehind = false → y = x)) y z →
        List.Forall₂ (fun x y : QueuedRequest => y.request = x.request ∧ (x.progress.isBehind = false → y = x)) x z := by
      intro x y z hxy
      induction hxy generalizing z with
      | nil => intro hz; cases hz; exact .nil
      | cons hd _ ih =>
        intro hz
        cases hz with
        | cons hd' tl' =>
          refine .cons ⟨hd'.1.trans hd.1, fun hx => ?_⟩ (ih tl')
          obtain rfl := hd.2 hx
          exact hd'.2 hx
    exact comp h.queue k.queue
  waiting := k.waiting.trans h.waiting
  lastError := k.lastError.trans h.lastError
  counts := by
    obtain ⟨n, hn⟩ := h.counts
    obtain ⟨m, hm⟩ := k.counts
    exact ⟨n + m, by rw [hm, hn]; simp [BitVec.add_assoc]⟩

theorem setFirst_behind (new : Progress) (q : List QueuedRequest) :
    List.Forall₂ (fun x y => y.request = x.request ∧ (x.progress.isBehind = false → y = x)) q
      (setFirst Progress.isBehind new q) := by
  induction q with
  | nil => exact .nil
  | cons x q ih =>
    unfold setFirst
    split
    · rename_i hx
      exact .cons ⟨rfl, fun h => by rw [h] at hx; cases hx⟩ (List.forall₂_same.mpr fun y _ => ⟨rfl, fun _ => rfl⟩)
    · exact .cons ⟨rfl, fun _ => rfl⟩ ih

/-- Becoming the head moves the port on and leaves the other port. -/
theorem State.enterHead_port (p q : Port) (r : BusRequest) :
    (q = p → (s.port p).MovesOn ((s.enterHead p r).port p)) ∧ (q ≠ p → (s.enterHead p r).port q = s.port q) := by
  have moved (new : Progress) : (s.port p).MovesOn { s.port p with queue := setFirst Progress.isBehind new (s.port p).queue } :=
    ⟨setFirst_behind new _, rfl, rfl, ⟨0, by simp⟩⟩
  unfold State.enterHead
  dsimp only
  repeat' split
  all_goals simp only [State.hitFor_port, State.passage_port, State.countPort_port, State.progressFirst_port]
  all_goals (refine ⟨fun h => ?_, fun h => by simp [h]⟩)
  all_goals simp only [if_true]
  all_goals first
    | exact moved _
    | exact ⟨setFirst_behind _ _, rfl, rfl, ⟨1, rfl⟩⟩

theorem State.bringHeads_port (p q : Port) (n : Nat) : ∀ s : State,
    (q = p → (s.port p).MovesOn ((s.bringHeads p n).port p)) ∧ (q ≠ p → (s.bringHeads p n).port q = s.port q) := by
  induction n with
  | zero => exact fun s => ⟨fun _ => .refl _, fun _ => rfl⟩
  | succ n ih =>
    intro s
    unfold State.bringHeads
    split
    · rename_i r _ _
      exact ⟨fun h => ((State.enterHead_port s p q r.request).1 h).trans ((ih _).1 h),
        fun h => ((ih _).2 h).trans ((State.enterHead_port s p q r.request).2 h)⟩
    · exact ⟨fun _ => .refl _, fun _ => rfl⟩

/-- A port moves on: what it does to that port. -/
theorem State.moveOn_same (p : Port) : (s.port p).MovesOn ((s.moveOn p).port p) := (State.bringHeads_port p p _ s).1 rfl

/-- A port moves on: the other port stands as it was. -/
theorem State.moveOn_other {p q : Port} (h : q ≠ p) : (s.moveOn p).port q = s.port q := (State.bringHeads_port p q _ s).2 h

/-- With a head in place a port has nothing to bring. -/
theorem State.moveOn_of_head {p : Port} (h : (s.head p).isSome = true) : s.moveOn p = s := by
  unfold State.moveOn
  cases hn : (s.port p).queue.length with
  | zero => rfl
  | succ n =>
    unfold State.bringHeads
    split
    · rename_i hh _; rw [hh] at h; cases h
    · rfl

end

/-! ## What stands after moving on -/

/-- The part of a relation over a list that is two lists joined. -/
theorem forall₂_append_split {α β : Type} {R : α → β → Prop} : ∀ {pre post : List α} {after : List β},
    List.Forall₂ R (pre ++ post) after → ∃ a b, after = a ++ b ∧ List.Forall₂ R pre a ∧ List.Forall₂ R post b
  | [], _, after, h => ⟨[], after, rfl, .nil, h⟩
  | _ :: _, _, _, .cons hd tl => by
    obtain ⟨a, b, e, h1, h2⟩ := forall₂_append_split tl
    exact ⟨_ :: a, b, by simp [e], .cons hd h1, h2⟩

/-- Requests none of which is BEHIND stand as they are when the port moves on. -/
theorem movesOn_fixed {pre a : List QueuedRequest}
    (h : List.Forall₂ (fun x y : QueuedRequest => y.request = x.request ∧ (x.progress.isBehind = false → y = x)) pre a)
    (hpre : ∀ x ∈ pre, x.progress.isBehind = false) : a = pre := by
  induction h with
  | nil => rfl
  | cons hd _ ih => rw [hd.2 (hpre _ (by simp)), ih fun x hx => hpre x (by simp [hx])]

/-- Every request keeps its place when the port moves on. -/
theorem movesOn_requests {pre a : List QueuedRequest}
    (h : List.Forall₂ (fun x y : QueuedRequest => y.request = x.request ∧ (x.progress.isBehind = false → y = x)) pre a) :
    a.map (·.request) = pre.map (·.request) := by
  induction h with
  | nil => rfl
  | cons hd _ ih => simp [hd.1, ih]

end Sys2Proof.Machine
end

