-- ==== Sys2Proof/Laws/Records.lean ====
section
/-! SUPPORT. What an operation can do to the capture unit and the causes: set causes, take hits, hand records on. Every
operation of the data path and of the commits is a chain of these, so what these keep, it keeps. -/

namespace Sys2Proof.Machine

/-- One step of recording: a change outside the capture unit and the causes, a sticky cause set, a hit
taken, a record handed on. -/
inductive Recording : State → State → Prop
  | elsewhere {s t : State} (hev : t.ev = s.ev) (hcap : t.cap = s.cap) : Recording s t
  | raise (s : State) (c : Cause) (sticky : c ≠ .captureReady) : Recording s (s.raise c)
  | hit (s : State) (h : Hit) : Recording s (s.takeHit h)
  | record (s : State) (r : CaptureRecord) : Recording s (s.handRecord r)

/-- A chain of recordings. -/
abbrev Recordings : State → State → Prop := Relation.ReflTransGen Recording

theorem Recordings.elsewhere {s t : State} (hev : t.ev = s.ev) (hcap : t.cap = s.cap) : Recordings s t :=
  .single (.elsewhere hev hcap)

/-- A property that every recording keeps is kept by a chain of them. -/
theorem Recordings.keeps {P : State → Prop} (step : ∀ s t, P s → Recording s t → P t) {s t : State} (h : Recordings s t)
    (hs : P s) : P t := by
  induction h with
  | refl => exact hs
  | tail _ hc ih => exact step _ _ ih hc

section
variable (s : State)

theorem State.hitFor_records (p : Port) (r : BusRequest) (cls : Classification) (m : LaneSet) (d : Lanes) (e : Bool) :
    Recordings s (s.hitFor p r cls m d e) := by
  unfold State.hitFor; split
  · exact .single (.hit _ _)
  · exact .refl

theorem State.enterHead_records (p : Port) (r : BusRequest) : Recordings s (s.enterHead p r) := by
  unfold State.enterHead
  dsimp only
  repeat' split
  · exact .trans (.single (.elsewhere (by simp) (by simp))) (State.hitFor_records _ _ _ _ _ _ _)
  · exact .trans (.single (.elsewhere (by simp) (by simp))) (State.hitFor_records _ _ _ _ _ _ _)
  · exact .single (.elsewhere (by simp) (by simp))
  · exact .trans (.single (.elsewhere (by simp) (by simp))) (State.hitFor_records _ _ _ _ _ _ _)
  · exact .single (.elsewhere (by simp) (by simp))

theorem State.bringHeads_records (p : Port) (n : Nat) : ∀ s : State, Recordings s (s.bringHeads p n) := by
  induction n with
  | zero => exact fun s => .refl
  | succ n ih =>
    intro s
    unfold State.bringHeads
    split
    · exact .trans (s.enterHead_records p _) (ih _)
    · exact .refl

theorem State.moveOn_records (p : Port) : Recordings s (s.moveOn p) := State.bringHeads_records _ _ _

theorem State.acceptRequest_records (p : Port) (r : BusRequest) : Recordings s (s.acceptRequest p r) :=
  .trans (.single (.elsewhere (by simp) (by simp))) (State.moveOn_records _ _)

theorem State.moveOnAll_records (ports : List Port) : ∀ s : State, Recordings s (State.moveOnAll ports s) := by
  induction ports with
  | nil => exact fun s => .refl
  | cons p ports ih => exact fun s => .trans (s.moveOn_records p) (ih _)

theorem State.place_records (p : Port) (g : GroupId) (w : WordIndex) (m : LaneSet) (d : Lanes) :
    Recordings s (s.place p g w m d).1 := by
  unfold State.place
  repeat' split
  · exact .single (.elsewhere (by simp) (by simp))
  · exact .single (.elsewhere (by simp) (by simp))
  · exact .trans (.single (.elsewhere (by simp) (by simp))) (.single (.raise _ _ (by simp)))
  · exact .refl

theorem State.retryHold_records (h : Hold) : Recordings s (s.retryHold h).1 := by
  unfold State.retryHold
  dsimp only
  repeat' split
  all_goals first
    | exact .refl
    | exact .trans (State.place_records s _ _ _ _ _) (.single (.elsewhere (by simp; rfl) (by simp)))

theorem State.retryAll_records (holds : List Hold) : ∀ s : State, Recordings s (State.retryAll holds s).1 := by
  induction holds with
  | nil => exact fun s => .refl
  | cons h holds ih => exact fun s => .trans (s.retryHold_records h) (ih _)

theorem State.retryHolds_records (concerned : Hold → Bool) : Recordings s (s.retryHolds concerned) :=
  .trans (State.retryAll_records _ _) (State.moveOnAll_records _ _)

theorem State.placeHead_records (p : Port) : Recordings s (s.placeHead p) := by
  unfold State.placeHead
  dsimp only
  split
  · split
    · exact .refl
    · split
      · exact .trans (.single (.elsewhere (by simp) (by simp))) (State.moveOn_records _ _)
      · split
        · exact .trans (State.place_records s _ _ _ _ _)
            (.trans (.single (.elsewhere (by simp; rfl) (by simp))) (State.moveOn_records _ _))
        · exact .trans (State.place_records s _ _ _ _ _)
            (.trans (.single (.elsewhere (by simp; rfl) (by simp))) (State.moveOn_records _ _))
        · exact .trans (State.place_records s _ _ _ _ _)
            (.trans (.single (.elsewhere (by simp; rfl) (by simp))) (State.moveOn_records _ _))
        · exact .single (.elsewhere (by simp) (by simp))
  · exact .refl

theorem State.logEmptyCommit_records (g : GroupId) (n : BitVec 16) (x : Stamp) :
    Recordings s (s.logEmptyCommit g n x) := by
  unfold State.logEmptyCommit; split
  · exact .single (.record _ _)
  · exact .refl

theorem State.takeCommit_records (g : GroupId) : Recordings s (s.takeCommit g) := by
  unfold State.takeCommit
  dsimp only
  split
  · exact .trans (.single (.elsewhere (by simp) (by simp))) (.trans (State.logEmptyCommit_records _ _ _ _) (State.retryHolds_records _ _))
  · exact .trans (.single (.elsewhere (by simp) (by simp))) (State.retryHolds_records _ _)

theorem State.slotAt_records (g : GroupId) : Recordings s (s.slotAt g) := by
  unfold State.slotAt State.missSlot; split
  · exact .trans (.single (.elsewhere (by simp) (by simp))) (.single (.raise _ _ (by simp)))
  · exact s.takeCommit_records g

theorem State.slotsAt_records (groups : List GroupId) : ∀ s : State, Recordings s (State.slotsAt groups s) := by
  induction groups with
  | nil => exact fun s => .refl
  | cons g groups ih => exact fun s => .trans (s.slotAt_records g) (ih _)

theorem State.slotInstant_records : Recordings s s.slotInstant := State.slotsAt_records _ _

theorem State.commitInEdge_records : Recordings s s.commitInEdge := State.slotsAt_records _ _

theorem State.commitNow_records (groups : List GroupId) : ∀ s : State, Recordings s (State.commitNow groups s).1 := by
  induction groups with
  | nil => exact fun s => .refl
  | cons g groups ih =>
    intro s
    unfold State.commitNow
    dsimp only
    repeat' split
    · exact ih s
    · exact ih s
    · exact .trans (s.takeCommit_records g) (ih _)

theorem State.abortOpen_records (g : GroupId) : Recordings s (s.abortOpen g) := by
  unfold State.abortOpen
  dsimp only
  split
  · exact .refl
  · exact .trans (.single (.elsewhere (by simp) (by simp))) (State.retryHolds_records _ _)

theorem State.expireHold_records (p : Port) : Recordings s (s.expireHold p) := by
  unfold State.expireHold
  repeat' split
  all_goals first
    | exact .refl
    | exact .trans (.trans (.single (.elsewhere (by simp) (by simp))) (.single (.raise _ _ (by simp)))) (State.moveOn_records _ _)

theorem State.expireBudget_records (g : GroupId) : Recordings s (s.expireBudget g) := by
  unfold State.expireBudget; split
  · refine .trans (.trans (.single (.elsewhere ?_ ?_)) (.single (.raise (State.countGroup g _ _) (.drainLate g) (by simp))))
      (.single (.elsewhere (by simp; rfl) (by simp))) <;> simp
  · exact .refl

theorem State.settleEntry_records (g : GroupId) (i : PoolIndex) (status : Status) :
    Recordings s (s.settleEntry g i status) := by
  unfold State.settleEntry
  dsimp only
  repeat' split
  · exact .single (.elsewhere (by simp) (by simp))
  · exact .trans (.single (.elsewhere (by simp) (by simp))) (.single (.raise _ _ (by simp)))
  · exact .refl

theorem State.retire_records (d : Drain) : Recordings s (s.retire d) := by
  unfold State.retire
  dsimp only
  split
  · exact .trans (.single (.elsewhere (by simp) (by simp))) (.single (.record _ _))
  · exact .single (.elsewhere (by simp) (by simp))

theorem State.ackDrain_records (g : GroupId) (i : PoolIndex) (status : Status) : Recordings s (s.ackDrain g i status) := by
  unfold State.ackDrain
  dsimp only
  refine .trans ?_ (State.retryHolds_records _ _)
  refine .trans (s.settleEntry_records g i status) ?_
  split
  · unfold State.ackGeneration
    repeat' split
    · dsimp only
      split
      · exact .trans (.single (.elsewhere (by simp) (by simp))) (State.retire_records _ _)
      · exact .single (.elsewhere (by simp) (by simp))
    · exact .refl
  · exact .single (.elsewhere (by simp) (by simp))

theorem State.grant_records : Recordings s s.grant := by
  unfold State.grant
  repeat' split
  · unfold State.grantPort
    split
    · exact .trans (.single (.elsewhere (by simp) (by simp))) (State.moveOn_records _ _)
    · exact .refl
  · exact .single (.elsewhere (by simp) (by simp))
  · exact .refl
  · exact .refl

theorem State.downstreamError_records (p : Port) (r : BusRequest) : Recordings s (s.downstreamError p r) :=
  .trans (.single (.elsewhere (by simp) (by simp))) (.single (.raise _ _ (by simp)))

theorem State.routeToPort_records (p : Port) (status : Status) (memory : Lanes) :
    Recordings s (s.routeToPort p status memory) := by
  unfold State.routeToPort
  split
  · rename_i r cls _
    have answered (a : Answer) : Recordings s (s.progressFirst p Progress.isOnM (.answered a)) :=
      .single (.elsewhere (by simp) (by simp))
    cases r <;> cases status
    · exact .trans (answered _) (State.hitFor_records _ _ _ _ _ _ _)
    · exact .trans (.trans (answered _) (State.downstreamError_records _ _ _)) (State.hitFor_records _ _ _ _ _ _ _)
    · exact answered _
    · exact .trans (answered _) (State.downstreamError_records _ _ _)
  · exact .refl

theorem State.memoryResponse_records (status : Status) (memory : Lanes) :
    Recordings s (s.memoryResponse status memory) := by
  unfold State.memoryResponse
  split
  · exact .refl
  · rename_i item rest _
    refine .trans (b := s.withArb { s.arb with outstanding := rest }) (.single (.elsewhere (by simp) (by simp))) ?_
    dsimp only
    split
    · exact State.routeToPort_records _ _ _ _
    · exact State.ackDrain_records _ _ _ _

theorem State.presentRequest_records (p : Port) (r : BusRequest) : Recordings s (s.presentRequest p r) := by
  unfold State.presentRequest; split
  · exact s.acceptRequest_records p r
  · exact .single (.elsewhere (by simp) (by simp))

theorem State.takeResponse_records (p : Port) : Recordings s (s.takeResponse p) := by
  unfold State.takeResponse
  split
  · refine .trans (b := s.withPort p { s.port p with queue := (s.port p).queue.tail })
      (.single (.elsewhere (by simp) (by simp))) ?_
    unfold State.acceptWaiting
    repeat' split
    · exact .refl
    · exact .trans (.single (.elsewhere (by simp) (by simp))) (State.acceptRequest_records _ _ _)
    · exact .refl
  · exact .refl

end

end Sys2Proof.Machine
end

