-- ==== Sys2Proof/Laws/Commits.lean ====
section
/-! SUPPORT. What placements, retries and commit events do to the groups, the drain queue and the causes: one lemma per
operation, for every group at once. -/

namespace Sys2Proof.Machine

theorem State.group_eq {s t : State} (h : t.groups = s.groups) (g : GroupId) : t.group g = s.group g := by
  simp [State.group, h]

theorem State.entry_eq {s t : State} (h : t.pool = s.pool) (i : PoolIndex) : t.entry i = s.entry i := by
  simp [State.entry, h]

section
variable (s : State)

@[simp] theorem State.raise_group (c : Cause) (g : GroupId) : (s.raise c).group g = s.group g := rfl
@[simp] theorem State.moveOn_group (p : Port) (g : GroupId) : (s.moveOn p).group g = s.group g :=
  State.group_eq (by simp) g
@[simp] theorem State.moveOnAll_group (ports : List Port) (g : GroupId) :
    (State.moveOnAll ports s).group g = s.group g := State.group_eq (by simp) g
@[simp] theorem State.dropHold_group (p : Port) (g : GroupId) : (s.dropHold p).group g = s.group g := rfl
@[simp] theorem State.answerPlaced_group (p : Port) (cls : Classification) (b : Bool) (g : GroupId) :
    (s.answerPlaced p cls b).group g = s.group g := State.group_eq (by simp) g
@[simp] theorem State.answerRefused_group (p : Port) (cls : Classification) (r : BusRequest) (reason : ErrorReason)
    (g : GroupId) : (s.answerRefused p cls r reason).group g = s.group g := State.group_eq (by simp) g
@[simp] theorem State.logEmptyCommit_group (h : GroupId) (n : BitVec 16) (x : Stamp) (g : GroupId) :
    (s.logEmptyCommit h n x).group g = s.group g := State.group_eq (by simp) g
@[simp] theorem State.appendDrain_group (h : GroupId) (n : BitVec 16) (x : Stamp) (g : GroupId) :
    (s.appendDrain h n x).group g = s.group g := rfl

end

/-- A group after its counts are changed, and the other groups. -/
theorem State.countGroup_group (s : State) (g h : GroupId) (f : GroupCounts → GroupCounts) :
    (s.countGroup g f).group h = if h = g then { s.group h with counts := f (s.group h).counts } else s.group h := by
  unfold State.countGroup
  by_cases e : h = g
  · subst e; simp
  · simp [e, State.group_withGroup_ne _ (Ne.symm e)]

/-- What placements into a group change of it: its open list and three of its counts. -/
structure Group.Collects (before after : Group) : Prop where
  same : after = { before with
    openList := after.openList
    counts := { before.counts with
      allocated := after.counts.allocated, merged := after.counts.merged, rejections := after.counts.rejections } }

theorem Group.Collects.refl (g : Group) : g.Collects g := ⟨rfl⟩

theorem Group.Collects.trans {a b c : Group} (h : a.Collects b) (k : b.Collects c) : a.Collects c := by
  refine ⟨k.same.trans ?_⟩
  rw [h.same]

/-- A merge or a rejection counted in a group. -/
theorem State.countGroup_collects (s : State) (g h : GroupId) {f : GroupCounts → GroupCounts}
    (hf : ∀ c, f c = { c with allocated := (f c).allocated, merged := (f c).merged, rejections := (f c).rejections }) :
    (s.group h).Collects ((s.countGroup g f).group h) ∧ (h ≠ g → (s.countGroup g f).group h = s.group h) := by
  rw [State.countGroup_group]
  refine ⟨?_, fun e => by simp [e]⟩
  split
  · exact ⟨by simp only [← hf]⟩
  · exact .refl _

/-- A placement changes the write's group only, and of it what collecting changes. -/
theorem State.place_group (s : State) (p : Port) (g h : GroupId) (w : WordIndex) (m : LaneSet) (d : Lanes) :
    (s.group h).Collects ((s.place p g w m d).1.group h) ∧ (h ≠ g → (s.place p g w m d).1.group h = s.group h) := by
  unfold State.place
  repeat' split
  · rename_i i _
    generalize updateEntries [i] (Entry.mergeWrite p m d) s.pool = pool
    simpa only [State.withPool_group] using (s.withPool pool).countGroup_collects g h (fun _ => rfl)
  · generalize s.pool.set _ _ _ = pool
    by_cases e : h = g
    · subst e
      rw [State.group_withGroup_same]
      exact ⟨⟨rfl⟩, fun n => absurd rfl n⟩
    · rw [State.group_withGroup_ne _ (Ne.symm e), State.withPool_group]
      exact ⟨.refl _, fun _ => rfl⟩
  · simpa only [State.raise_group] using s.countGroup_collects g h (fun _ => rfl)
  · exact ⟨.refl _, fun _ => rfl⟩

/-- A retry changes the hold's group only, and of it what collecting changes. -/
theorem State.retryHold_group (s : State) (x : Hold) (h : GroupId) :
    (s.group h).Collects ((s.retryHold x).1.group h) ∧ (h ≠ x.group → (s.retryHold x).1.group h = s.group h) := by
  unfold State.retryHold
  split
  · rename_i w m d _ _ _
    have hp := s.place_group x.port x.group h w m d
    dsimp only
    split
    · simpa using hp
    · simpa using hp
    · simpa using hp
    · exact ⟨.refl _, fun _ => rfl⟩
  · exact ⟨.refl _, fun _ => rfl⟩

theorem State.retryAll_group (h : GroupId) (holds : List Hold) : ∀ s : State,
    (s.group h).Collects ((State.retryAll holds s).1.group h) ∧
      ((∀ x ∈ holds, h ≠ x.group) → (State.retryAll holds s).1.group h = s.group h) := by
  induction holds with
  | nil => exact fun s => ⟨.refl _, fun _ => rfl⟩
  | cons x holds ih =>
    intro s
    have h1 := s.retryHold_group x h
    have h2 := ih (s.retryHold x).1
    refine ⟨h1.1.trans h2.1, fun hn => ?_⟩
    exact (h2.2 fun y hy => hn y (by simp [hy])).trans (h1.2 (hn x (by simp)))

/-- A retry point changes the groups of the concerned holds only, and of them what collecting changes (R16, R17). -/
theorem State.retryHolds_group (s : State) (concerned : Hold → Bool) (h : GroupId) :
    (s.group h).Collects ((s.retryHolds concerned).group h) ∧
      ((∀ x, concerned x = true → h ≠ x.group) → (s.retryHolds concerned).group h = s.group h) := by
  unfold State.retryHolds
  simp only [State.moveOnAll_group]
  refine ⟨(State.retryAll_group h _ s).1, fun hn => (State.retryAll_group h _ s).2 fun x hx => hn x ?_⟩
  exact (List.mem_filter.mp hx).2

/-- With no write held a retry point changes nothing. -/
theorem State.retryHolds_of_none {s : State} (h : s.holds = []) (concerned : Hold → Bool) : s.retryHolds concerned = s := by
  simp [State.retryHolds, h, State.retryAll, State.moveOnAll]

/-! ## Commit events -/

/-- The state of a commit event before the held writes are retried (R35, R36). -/
def State.committed (g : GroupId) (s : State) : State :=
  if (s.group g).openList.isEmpty then
    (s.stampCommit g).logEmptyCommit g ((s.group g).sequence + 1) s.now
  else ((s.stampCommit g).commitMove g ((s.group g).sequence + 1)).appendDrain g ((s.group g).sequence + 1) s.now

theorem State.takeCommit_eq (s : State) (g : GroupId) :
    s.takeCommit g = (s.committed g).retryHolds fun h => decide (h.group = g) := by
  simp [State.takeCommit, State.committed, State.stampCommit]

/-- A group after its commit event, before the retries, and the other groups (R35, R36). -/
theorem State.committed_group (s : State) (g h : GroupId) :
    (s.committed g).group h =
      if h = g then
        { s.group g with
          sequence := (s.group g).sequence + 1
          lastCommit := some s.now
          counts := { (s.group g).counts with commitsTaken := (s.group g).counts.commitsTaken + 1 }
          openList := []
          drainList := if (s.group g).openList = [] then (s.group g).drainList else (s.group g).openList
          firstFault := if (s.group g).openList = [] then (s.group g).firstFault else none }
      else s.group h := by
  unfold State.committed
  cases ho : (s.group g).openList with
  | nil =>
    simp only [List.isEmpty_nil, if_true]
    rw [State.logEmptyCommit_group]
    by_cases e : h = g
    · subst e; simp [State.stampCommit, ho]
    · simp [e, State.stampCommit, State.group_withGroup_ne _ (Ne.symm e)]
  | cons i l =>
    simp only [List.isEmpty_cons, Bool.false_eq_true, if_false]
    rw [State.appendDrain_group]
    by_cases e : h = g
    · subst e; simp [State.stampCommit, State.commitMove, ho]
    · simp [e, State.stampCommit, State.commitMove, State.group_withGroup_ne _ (Ne.symm e)]

/-- The drain engine after a commit event (R35, R50, R60). -/
theorem State.committed_drain (s : State) (g : GroupId) :
    (s.committed g).drain =
      if (s.group g).openList = [] then s.drain
      else { s.drain with
        commitBusy := true
        queue := s.drain.queue ++ [⟨g, (s.group g).sequence + 1, s.now, s.tb.usClock, (s.group g).drainBudget,
          if s.drain.queue = [] ∧ s.drain.leftovers = [] then .issuing else .waiting,
          (s.group g).openList.head?, 0, 0, 0, false⟩] } := by
  unfold State.committed
  cases ho : (s.group g).openList with
  | nil => simp
  | cons i l =>
    simp only [List.isEmpty_cons, Bool.false_eq_true, if_false, reduceCtorEq]
    simp [State.appendDrain, State.commitMove, State.stampCommit, ho]

/-- The entries after a commit event (R19). -/
theorem State.committed_entry (s : State) (g : GroupId) (i : PoolIndex) :
    (s.committed g).entry i =
      if i ∈ (s.group g).openList
      then (s.entry i).map fun e => { e with state := .queued, gen := .draining ((s.group g).sequence + 1) }
      else s.entry i := by
  unfold State.committed
  cases ho : (s.group g).openList with
  | nil => simp only [List.isEmpty_nil, if_true]; simpa using State.entry_eq (by simp) i
  | cons j l =>
    simp only [List.isEmpty_cons, Bool.false_eq_true, if_false]
    rw [State.entry_eq (s := (s.stampCommit g).commitMove g ((s.group g).sequence + 1)) (by simp)]
    simp only [State.commitMove, State.withGroup]
    rw [State.withGroups_entry, State.entry_updateEntries]
    simp [State.stampCommit, ho, State.entry_eq (s := s) (t := s.withGroup g _) (by simp)]

end Sys2Proof.Machine
end

