-- ==== Sys2Proof/Laws/Judging.lean ====
section
/-! SUPPORT. How a command is judged: the guards of RESET_N and of INIT taken away, and the argument bytes of the numbers,
switches and codes read. -/

namespace Sys2Proof.Machine

/-! ## The guards -/

theorem State.awake_of_high {s : State} (h : s.resetLow = false) (f : State → State) : s.awake f = f s := by
  simp [State.awake, h]

theorem State.awake_of_low {s : State} (h : s.resetLow = true) (f : State → State) : s.awake f = s := by
  simp [State.awake, h]

theorem State.hearing_of_listening {s : State} (h : s.resetLow = false) (hl : s.mgmt.listening = true)
    (f : State → State) : s.hearing f = f s := by
  simp [State.hearing, State.awake, h, hl]

theorem State.hearing_of_low {s : State} (h : s.resetLow = true) (f : State → State) : s.hearing f = s :=
  State.awake_of_low h _

/-- A frame under a CS_N that has been low since the release only makes the port listen (R167). -/
theorem State.hearing_of_waiting {s : State} (h : s.resetLow = false) (hl : s.mgmt.listening = false)
    (f : State → State) : s.hearing f = s.withMgmt { s.mgmt with listening := true } := by
  simp [State.hearing, State.awake, h, hl]

theorem State.onEdge_of_hasBeenLow {s : State} (h : s.resetLow = false) {line : EdgeInput}
    (hl : line.seen ≠ .highFromRelease) (f : State → State) : s.onEdge line f = f s := by
  simp [State.onEdge, State.awake, EdgeInput.hasBeenLow, h, hl]

/-- A line that has been high since RESET_N rose gives no edge (R182). -/
theorem State.onEdge_of_highFromRelease {s : State} {line : EdgeInput} (hl : line.seen = .highFromRelease)
    (f : State → State) : s.onEdge line f = s := by
  simp [State.onEdge, State.awake, EdgeInput.hasBeenLow, hl]

theorem State.unlessInit_of_ne {s : State} (h : s.op ≠ .init) (n : Nat) (f : State → State) : s.unlessInit n f = f s := by
  simp [State.unlessInit, h]

theorem State.unlessInit_of_init {s : State} (h : s.op = .init) (n : Nat) (f : State → State) :
    s.unlessInit n f = s.refuse .badState n := by
  simp [State.unlessInit, h]

/-- A PUT_SETTING of a global item whose checks are met reaches its owner. -/
theorem State.putGlobal_of_ok {α : Type} {s : State} (h : s.op ≠ .init) {arg : Option α} {v : α} (ha : arg = some v)
    (owner : α → State → State) : s.putGlobal 0 arg owner = owner v s := by
  simp [State.putGlobal, State.unlessInit_of_ne h, ha]

/-- A PUT_SETTING of a group or channel item whose checks are met reaches its owner. -/
theorem State.putIndexed_of_ok {α : Type} {s : State} (h : s.op ≠ .init) {index : Byte} {n : Fin 4}
    (hi : argBelow 4 index = some n) {arg : Option α} {v : α} (ha : arg = some v) (owner : Fin 4 → α → State → State) :
    s.putIndexed index arg owner = owner n v s := by
  simp [State.putIndexed, State.unlessInit_of_ne h, hi, ha]

/-! ## Argument bytes -/

/-- The byte of a number below n is read as that number. -/
theorem argBelow_ofNat {n : Nat} (h : n ≤ 256) (i : Fin n) : argBelow n (BitVec.ofNat 8 i.val) = some i := by
  have hi := i.isLt
  have hb : (BitVec.ofNat 8 i.val).toNat = i.val := by simp; omega
  simp [argBelow, hb]

theorem argBelow_none {n : Nat} {b : Byte} (h : n ≤ b.toNat) : argBelow n b = none := by
  simp [argBelow]; omega

theorem argBelow_some {n : Nat} {b : Byte} {i : Fin n} : argBelow n b = some i ↔ i.val = b.toNat := by
  unfold argBelow
  split
  · rw [Option.some_inj, Fin.ext_iff]; exact eq_comm
  · have := i.isLt; simp; omega

theorem argSwitch_spec {v : Byte} (h : v.toNat ≤ 1) : argSwitch v = some (decide (v = 1)) := by
  have : v = 0 ∨ v = 1 := by
    rcases Nat.le_one_iff_eq_zero_or_eq_one.mp h with h | h
    · exact .inl (BitVec.eq_of_toNat_eq h)
    · exact .inr (BitVec.eq_of_toNat_eq h)
  rcases this with rfl | rfl <;> rfl

theorem argFour_spec {b : Byte} (h : b.toNat < 16) : argFour b = some (b.setWidth 4) := by simp [argFour, h]

theorem argFour_none {b : Byte} (h : 16 ≤ b.toNat) : argFour b = none := by simp [argFour]; omega

theorem argCauses_spec {c : BitVec 24} (h : c.toNat < 2 ^ 19) : argCauses c = some (c.setWidth 19) := by
  simp only [argCauses, h, if_true]

theorem argCauses_none {c : BitVec 24} (h : 2 ^ 19 ≤ c.toNat) : argCauses c = none := by
  simp only [argCauses]; rw [if_neg]; omega

theorem argGrantPolicy_code (p : GrantPolicy) : argGrantPolicy p.code = some p := by cases p <;> rfl
theorem argTrigger_code (x : TriggerSource) : argTrigger x.code = some x := by cases x <;> rfl
theorem argMode_code (x : GroupMode) : argMode x.code = some x := by cases x <;> rfl
theorem argPolicy_code (x : FullPolicy) : argPolicy x.code = some x := by cases x <;> rfl
theorem argDirection_code (x : Direction) : argDirection x.code = some x := by cases x <;> rfl

theorem argMicroseconds_spec {v : BitVec 16} (h : v.toNat ≤ 4095) : argMicroseconds v = some (v.setWidth 12) := by
  simp only [argMicroseconds]; rw [if_pos]; omega

theorem argRange_of_le {lo hi : Nat} {b : Byte} (h1 : lo ≤ b.toNat) (h2 : b.toNat ≤ hi) : argRange lo hi b = some b := by
  simp [argRange, h1, h2]

theorem argPeriod_of_le {v : BitVec 16} (h : 2 ≤ v.toNat) : argPeriod v = some v := by simp [argPeriod, h]

/-! ## One bit of the cause set -/

/-- Setting a cause sets its member and no other (R155). -/
theorem State.raise_bit (s : State) (c : Cause) (i : Fin 19) : (s.raise c).ev.causes.getLsbD i.val =
    (s.ev.causes.getLsbD i.val || decide (i.val = c.member)) := by
  simp [State.raise, EventUnit.raise, EventUnit.evaluated, Cause.asSet, State.withEv]

/-- Re-evaluating CAPTURE_READY gives it the level of the queue and leaves every other cause (R149, R156). -/
theorem State.refreshReady_bit (s : State) (i : Fin 19) : s.refreshReady.ev.causes.getLsbD i.val =
    if i.val = 18 then decide (s.cap.threshold.toNat ≤ s.cap.queue.length) else s.ev.causes.getLsbD i.val := by
  simp [State.refreshReady, EventUnit.ready, EventUnit.evaluated, stickyCauses, Cause.asSet, State.withEv, Cause.member]
  split <;> split <;> simp_all

end Sys2Proof.Machine
end

