-- ==== Sys2Proof/Laws/PerInstr.lean ====
section
/-! SUPPORT. One family of statements about every command as syntax, a lemma for each constructor: the frame that spells a
command carries the argument bytes that chapter 10 gives the command. -/

namespace Sys2Proof.Laws

/-- The number of argument bytes of a frame with this command byte (10.3), given the first of them; none for a byte that
names no command. A PUT_SETTING has two and the value bytes of its item, and none of those for an item that is none
(R172). -/
def argumentBytes (command : Byte) (first : Option Byte) : Option Nat :=
  match command.toNat with
  | 0x01 => some 2
  | 0x02 => first.map fun item => 2 + (settingValueBytes item).getD 0
  | 0x03 => some 17
  | 0x04 | 0x05 | 0x06 | 0x07 | 0x08 => some 1
  | 0x0A | 0x0B | 0x0C => some 1
  | 0x12 | 0x13 => some 3
  | 0x09 | 0x0D | 0x0E | 0x0F | 0x10 | 0x11 | 0x14 => some 0
  | _ => none

/-- A frame that spells a command: a byte that names a command with that command's argument bytes, or, for
UNKNOWN_COMMAND, a byte that names none and nothing after it (R166). -/
def FrameLength.Statement (c : Instr) : Prop :=
  c.wellFormed = true → ∀ (command : Byte) (args : List Byte), encodeFrame c = some (command :: args) →
    (namesCommand command = true ∧ argumentBytes command args.head? = some args.length) ∨
      (c = .unknownCommand command ∧ namesCommand command = false ∧ args = [])

theorem FrameLength.resetNAssert : FrameLength.Statement .resetNAssert := by
  intro _ command args h
  cases h

theorem FrameLength.resetNRelease : FrameLength.Statement .resetNRelease := by
  intro _ command args h
  cases h

theorem FrameLength.initComplete : FrameLength.Statement .initComplete := by
  intro _ command args h
  cases h

theorem FrameLength.usClockAdvance : FrameLength.Statement .usClockAdvance := by
  intro _ command args h
  cases h

theorem FrameLength.counterStep : FrameLength.Statement .counterStep := by
  intro _ command args h
  cases h

theorem FrameLength.naturalWrap : FrameLength.Statement .naturalWrap := by
  intro _ command args h
  cases h

theorem FrameLength.syncInEdge : FrameLength.Statement .syncInEdge := by
  intro _ command args h
  cases h

theorem FrameLength.commitInEdge : FrameLength.Statement .commitInEdge := by
  intro _ command args h
  cases h

theorem FrameLength.holdLimitExpiry : ∀ port, FrameLength.Statement (.holdLimitExpiry port) := by
  intro _ _ command args h
  cases h

theorem FrameLength.drainBudgetExpiry : ∀ group, FrameLength.Statement (.drainBudgetExpiry group) := by
  intro _ _ command args h
  cases h

theorem FrameLength.requestAccept : ∀ port request, FrameLength.Statement (.requestAccept port request) := by
  intro _ _ _ command args h
  cases h

theorem FrameLength.stagedWritePlacement : ∀ port, FrameLength.Statement (.stagedWritePlacement port) := by
  intro _ _ command args h
  cases h

theorem FrameLength.grant : FrameLength.Statement .grant := by
  intro _ command args h
  cases h

theorem FrameLength.memoryResponse : ∀ status data tag, FrameLength.Statement (.memoryResponse status data tag) := by
  intro _ _ _ _ command args h
  cases h

theorem FrameLength.responseTaken : ∀ port, FrameLength.Statement (.responseTaken port) := by
  intro _ _ command args h
  cases h

theorem FrameLength.partialFrame : ∀ sckEdges, FrameLength.Statement (.partialFrame sckEdges) := by
  intro _ _ command args h
  cases h

theorem FrameLength.unknownCommand : ∀ command, FrameLength.Statement (.unknownCommand command) := by
  intro b hw command args h
  simp only [encodeFrame, Option.some.injEq, List.cons.injEq] at h
  obtain ⟨rfl, rfl⟩ := h
  exact .inr ⟨rfl, by simpa [Instr.wellFormed] using hw, rfl⟩

theorem FrameLength.getSetting : ∀ item index, FrameLength.Statement (.getSetting item index) := by
  intro _ _ _ command args h
  cases h
  exact .inl ⟨by decide, rfl⟩

theorem FrameLength.putSettingReferenceFrequency : ∀ index value, FrameLength.Statement (.putSettingReferenceFrequency index value) := by
  intro _ _ _ command args h
  cases h
  exact .inl ⟨by decide, rfl⟩

theorem FrameLength.putSettingTimebasePrescale : ∀ index value, FrameLength.Statement (.putSettingTimebasePrescale index value) := by
  intro _ _ _ command args h
  cases h
  exact .inl ⟨by decide, rfl⟩

theorem FrameLength.putSettingPeriod : ∀ index value, FrameLength.Statement (.putSettingPeriod index value) := by
  intro _ _ _ command args h
  cases h
  exact .inl ⟨by decide, rfl⟩

theorem FrameLength.putSettingSyncEnable : ∀ index value, FrameLength.Statement (.putSettingSyncEnable index value) := by
  intro _ _ _ command args h
  cases h
  exact .inl ⟨by decide, rfl⟩

theorem FrameLength.putSettingGrantPolicy : ∀ index value, FrameLength.Statement (.putSettingGrantPolicy index value) := by
  intro _ _ _ command args h
  cases h
  exact .inl ⟨by decide, rfl⟩

theorem FrameLength.putSettingCaptureThreshold : ∀ index value, FrameLength.Statement (.putSettingCaptureThreshold index value) := by
  intro _ _ _ command args h
  cases h
  exact .inl ⟨by decide, rfl⟩

theorem FrameLength.putSettingGroupEnabled : ∀ index value, FrameLength.Statement (.putSettingGroupEnabled index value) := by
  intro _ _ _ command args h
  cases h
  exact .inl ⟨by decide, rfl⟩

theorem FrameLength.putSettingTriggerSource : ∀ index value, FrameLength.Statement (.putSettingTriggerSource index value) := by
  intro _ _ _ command args h
  cases h
  exact .inl ⟨by decide, rfl⟩

theorem FrameLength.putSettingSlotOffset : ∀ index value, FrameLength.Statement (.putSettingSlotOffset index value) := by
  intro _ _ _ command args h
  cases h
  exact .inl ⟨by decide, rfl⟩

theorem FrameLength.putSettingMode : ∀ index value, FrameLength.Statement (.putSettingMode index value) := by
  intro _ _ _ command args h
  cases h
  exact .inl ⟨by decide, rfl⟩

theorem FrameLength.putSettingFullPolicy : ∀ index value, FrameLength.Statement (.putSettingFullPolicy index value) := by
  intro _ _ _ command args h
  cases h
  exact .inl ⟨by decide, rfl⟩

theorem FrameLength.putSettingEntryLimit : ∀ index value, FrameLength.Statement (.putSettingEntryLimit index value) := by
  intro _ _ _ command args h
  cases h
  exact .inl ⟨by decide, rfl⟩

theorem FrameLength.putSettingHoldLimit : ∀ index value, FrameLength.Statement (.putSettingHoldLimit index value) := by
  intro _ _ _ command args h
  cases h
  exact .inl ⟨by decide, rfl⟩

theorem FrameLength.putSettingDrainBudget : ∀ index value, FrameLength.Statement (.putSettingDrainBudget index value) := by
  intro _ _ _ command args h
  cases h
  exact .inl ⟨by decide, rfl⟩

theorem FrameLength.putSettingLogCommits : ∀ index value, FrameLength.Statement (.putSettingLogCommits index value) := by
  intro _ _ _ command args h
  cases h
  exact .inl ⟨by decide, rfl⟩

theorem FrameLength.putSettingChannelEnabled : ∀ index value, FrameLength.Statement (.putSettingChannelEnabled index value) := by
  intro _ _ _ command args h
  cases h
  exact .inl ⟨by decide, rfl⟩

theorem FrameLength.putSettingDirection : ∀ index value, FrameLength.Statement (.putSettingDirection index value) := by
  intro _ _ _ command args h
  cases h
  exact .inl ⟨by decide, rfl⟩

theorem FrameLength.putSettingChannelPrescale : ∀ index value, FrameLength.Statement (.putSettingChannelPrescale index value) := by
  intro _ _ _ command args h
  cases h
  exact .inl ⟨by decide, rfl⟩

theorem FrameLength.putSettingGate : ∀ index value, FrameLength.Statement (.putSettingGate index value) := by
  intro _ _ _ command args h
  cases h
  exact .inl ⟨by decide, rfl⟩

theorem FrameLength.putSettingRearmAtWrap : ∀ index value, FrameLength.Statement (.putSettingRearmAtWrap index value) := by
  intro _ _ _ command args h
  cases h
  exact .inl ⟨by decide, rfl⟩

theorem FrameLength.putSettingMatch : ∀ index value mask, FrameLength.Statement (.putSettingMatch index value mask) := by
  intro index value mask _ command args h
  simp only [encodeFrame, List.cons_append, List.nil_append, Option.some.injEq, List.cons.injEq] at h
  obtain ⟨rfl, rfl⟩ := h
  exact .inl ⟨by decide, by simp [argumentBytes, settingValueBytes]⟩

theorem FrameLength.putSettingRecordData : ∀ index value, FrameLength.Statement (.putSettingRecordData index value) := by
  intro _ _ _ command args h
  cases h
  exact .inl ⟨by decide, rfl⟩

theorem FrameLength.putWindow : ∀ window base limit portSet cls group view capturePresent captureChannel, FrameLength.Statement (.putWindow window base limit portSet cls group view capturePresent captureChannel) := by
  intro _ _ _ _ _ _ _ _ _ _ command args h
  cases h
  exact .inl ⟨by decide, rfl⟩

theorem FrameLength.enableWindow : ∀ window, FrameLength.Statement (.enableWindow window) := by
  intro _ _ command args h
  cases h
  exact .inl ⟨by decide, rfl⟩

theorem FrameLength.disableWindow : ∀ window, FrameLength.Statement (.disableWindow window) := by
  intro _ _ command args h
  cases h
  exact .inl ⟨by decide, rfl⟩

theorem FrameLength.readWindow : ∀ window, FrameLength.Statement (.readWindow window) := by
  intro _ _ command args h
  cases h
  exact .inl ⟨by decide, rfl⟩

theorem FrameLength.readStatus : ∀ block, FrameLength.Statement (.readStatus block) := by
  intro _ _ command args h
  cases h
  exact .inl ⟨by decide, rfl⟩

theorem FrameLength.readEntry : ∀ index, FrameLength.Statement (.readEntry index) := by
  intro _ _ command args h
  cases h
  exact .inl ⟨by decide, rfl⟩

theorem FrameLength.popCapture : FrameLength.Statement .popCapture := by
  intro _ command args h
  cases h
  exact .inl ⟨by decide, rfl⟩

theorem FrameLength.commitNow : ∀ groups, FrameLength.Statement (.commitNow groups) := by
  intro _ _ command args h
  cases h
  exact .inl ⟨by decide, rfl⟩

theorem FrameLength.abortGroup : ∀ group, FrameLength.Statement (.abortGroup group) := by
  intro _ _ command args h
  cases h
  exact .inl ⟨by decide, rfl⟩

theorem FrameLength.rearm : ∀ channels, FrameLength.Statement (.rearm channels) := by
  intro _ _ command args h
  cases h
  exact .inl ⟨by decide, rfl⟩

theorem FrameLength.startTimebase : FrameLength.Statement .startTimebase := by
  intro _ command args h
  cases h
  exact .inl ⟨by decide, rfl⟩

theorem FrameLength.stopTimebase : FrameLength.Statement .stopTimebase := by
  intro _ command args h
  cases h
  exact .inl ⟨by decide, rfl⟩

theorem FrameLength.enableBridge : FrameLength.Statement .enableBridge := by
  intro _ command args h
  cases h
  exact .inl ⟨by decide, rfl⟩

theorem FrameLength.disableBridge : FrameLength.Statement .disableBridge := by
  intro _ command args h
  cases h
  exact .inl ⟨by decide, rfl⟩

theorem FrameLength.resetDatapath : FrameLength.Statement .resetDatapath := by
  intro _ command args h
  cases h
  exact .inl ⟨by decide, rfl⟩

theorem FrameLength.clearCauses : ∀ causes, FrameLength.Statement (.clearCauses causes) := by
  intro _ _ command args h
  cases h
  exact .inl ⟨by decide, rfl⟩

theorem FrameLength.setEnables : ∀ causes, FrameLength.Statement (.setEnables causes) := by
  intro _ _ command args h
  cases h
  exact .inl ⟨by decide, rfl⟩

theorem FrameLength.readIdentity : FrameLength.Statement .readIdentity := by
  intro _ command args h
  cases h
  exact .inl ⟨by decide, rfl⟩

theorem FrameLength.putSettingUnknownItem : ∀ item index, FrameLength.Statement (.putSettingUnknownItem item index) := by
  intro item index hw command args h
  simp only [encodeFrame, List.cons_append, List.nil_append, Option.some.injEq, List.cons.injEq] at h
  obtain ⟨rfl, rfl⟩ := h
  have : settingValueBytes item = none := by simpa [Instr.wellFormed] using hw
  exact .inl ⟨by decide, by simp [argumentBytes, this]⟩

end Sys2Proof.Laws
end

