-- ==== Sys2Proof/Laws/Pins.lean ====
section
/-! SUPPORT. The pins of the management port: what an edge can change, and the bytes that clocked bits spell. The edge inputs:
what a sample sees, and what one period of REFCLK leaves of them. -/

namespace Sys2Proof.Machine

/-! ## The updates -/

@[simp] theorem State.withPins_mgmt (x : FramePins) (s : State) : (s.withPins x).mgmt = { s.mgmt with pins := x } := rfl
@[simp] theorem State.withPins_pending (x : FramePins) (s : State) : (s.withPins x).pending = s.pending := rfl
@[simp] theorem State.withPins_resetLow (x : FramePins) (s : State) : (s.withPins x).resetLow = s.resetLow := rfl
@[simp] theorem State.enqueue_pending (c : Instr) (s : State) : (s.enqueue c).pending = s.pending ++ [c] := rfl
@[simp] theorem State.enqueue_mgmt (c : Instr) (s : State) : (s.enqueue c).mgmt = s.mgmt := rfl
@[simp] theorem State.enqueue_resetLow (c : Instr) (s : State) : (s.enqueue c).resetLow = s.resetLow := rfl

theorem State.pinEdges_append (xs ys : List PinEdge) (s : State) :
    s.pinEdges (xs ++ ys) = (s.pinEdges xs).pinEdges ys := by
  induction xs generalizing s with
  | nil => rfl
  | cons e rest ih => exact ih _

/-! ## What an edge can do -/

/-- An edge moves the pins and brings at most one row to the tail of the queue; the rest of the state stays. -/
theorem State.pinEdge_changes (e : PinEdge) (s : State) :
    ∃ (pins : FramePins) (rows : List Instr), rows.length ≤ 1 ∧
      s.pinEdge e = { s with mgmt := { s.mgmt with pins := pins }, pending := s.pending ++ rows } := by
  have stays : ∃ (pins : FramePins) (rows : List Instr), rows.length ≤ 1 ∧
      s = { s with mgmt := { s.mgmt with pins := pins }, pending := s.pending ++ rows } :=
    ⟨s.mgmt.pins, [], by simp, by simp⟩
  have moves (x : FramePins) : ∃ (pins : FramePins) (rows : List Instr), rows.length ≤ 1 ∧
      s.withPins x = { s with mgmt := { s.mgmt with pins := pins }, pending := s.pending ++ rows } :=
    ⟨x, [], by simp, by simp [State.withPins, State.withMgmt]⟩
  have brings (x : FramePins) (c : Instr) : ∃ (pins : FramePins) (rows : List Instr), rows.length ≤ 1 ∧
      (s.withPins x).enqueue c = { s with mgmt := { s.mgmt with pins := pins }, pending := s.pending ++ rows } :=
    ⟨x, [c], by simp, rfl⟩
  cases e with
  | csFall =>
    simp only [State.pinEdge]
    split
    · exact stays
    · exact moves _
  | csRise =>
    simp only [State.pinEdge, State.endFrame]
    split
    · exact brings _ _
    · exact moves _
  | sckRise sdi =>
    simp only [State.pinEdge, State.sampleBit]
    split
    · split
      · exact brings _ _
      · exact moves _
    · exact stays
  | sckFall =>
    simp only [State.pinEdge]
    split
    · exact moves _
    · exact stays

/-! ## Bits and bytes -/

@[simp] theorem byteBits_length (b : Byte) : (byteBits b).length = 8 := by simp [byteBits]

/-- The bits of a byte spell it. -/
theorem byteOfBits_byteBits (b : Byte) : byteOfBits (byteBits b) = b := by
  revert b; decide

/-- The bits of bytes, with up to seven bits after them, spell those bytes. -/
theorem sdiBytes_flatMap (bytes : List Byte) (rest : List Bool) (h : rest.length < 8) :
    sdiBytes (bytes.flatMap byteBits ++ rest) = bytes := by
  induction bytes with
  | nil => simp [sdiBytes, Nat.div_eq_of_lt h]
  | cons b bytes ih =>
    have hl : ((b :: bytes).flatMap byteBits ++ rest).length / 8
        = (bytes.flatMap byteBits ++ rest).length / 8 + 1 := by
      simp only [List.flatMap_cons, List.append_assoc, List.length_append, byteBits_length]; omega
    rw [sdiBytes, hl, List.range_succ_eq_map, List.map_cons, List.map_map]
    conv_rhs => rw [← ih]
    refine List.cons_eq_cons.mpr ⟨?_, ?_⟩
    · simp [byteOfBits_byteBits]
    · refine List.map_congr_left fun n _ => ?_
      simp only [Function.comp_apply, List.flatMap_cons, List.append_assoc, Nat.mul_succ, Nat.add_comm (8 * n) 8]
      rw [← List.drop_drop, List.drop_left' (byteBits_length b)]

/-! ## The edge inputs -/

@[simp] theorem EdgeInput.sampled_high (x : EdgeInput) : x.sampled.high = x.high := rfl
@[simp] theorem EdgeInput.released_high (x : EdgeInput) : x.released.high = x.high := rfl

/-- A line that has been sampled gives no further edge until its level changes. -/
theorem EdgeInput.rises_sampled (x : EdgeInput) : x.sampled.rises = false := by
  rcases x with ⟨_ | _, _ | _ | _⟩ <;> rfl

/-- An edge that is sampled is of a line that has been seen low since RESET_N rose. -/
theorem EdgeInput.hasBeenLow_of_rises {x : EdgeInput} (h : x.rises = true) : x.sampled.hasBeenLow = true := by
  rcases x with ⟨_ | _, _ | _ | _⟩ <;> first | rfl | exact absurd h (by decide)

/-- From the release on, a line has been seen low exactly when it is low. -/
theorem EdgeInput.hasBeenLow_released (x : EdgeInput) : x.released.hasBeenLow = !x.high := by
  rcases x with ⟨_ | _, _⟩ <;> rfl

/-- The expiries that fall due leave the edge inputs. -/
@[simp] theorem State.dueExpiries_inputs (s : State) : s.dueExpiries.inputs = s.inputs := by
  have h : ∀ (gs : List GroupId) (v : State), (gs.foldl (fun t g => t.expireBudget g) v).inputs = v.inputs := by
    intro gs
    induction gs with
    | nil => exact fun _ => rfl
    | cons g gs ih => intro v; simp [ih]
  simp [State.dueExpiries, h]

/-- What one period of REFCLK leaves of the edge inputs is their sample. -/
theorem State.refclkPeriod_inputs {s : State} (h : s.resetLow = false) : s.refclkPeriod.inputs = s.inputs.sampled := by
  simp only [State.refclkPeriod, State.awake, h, State.ifDue]
  repeat' split
  all_goals simp_all [State.countPeriod]

end Sys2Proof.Machine
end

