-- ==== Sys2Proof/Laws/Placement.lean ====
section
/-! SUPPORT. The four outcomes of a placement, each with what decides it, and what answering a head does to its queue. -/

namespace Sys2Proof.Machine

/-! ## The order of a queue around its head -/

/-- In an ordered queue everything before the head is settled and everything behind it is BEHIND (R102). -/
theorem queueOrdered_around {pre post : List QueuedRequest} {r : BusRequest} {cls : Classification} {place : HeadPlace}
    (h : queueOrdered (pre ++ ⟨r, .head cls place⟩ :: post) = true) :
    (∀ x ∈ pre, x.progress.isUnsettled = false) ∧ ∀ x ∈ post, x.progress.isBehind = true := by
  induction pre with
  | nil => simpa [queueOrdered] using h
  | cons x pre ih =>
    rw [List.cons_append] at h
    unfold queueOrdered at h
    split at h
    · rename_i hx
      obtain ⟨a, b⟩ := ih h
      exact ⟨by simp only [List.forall_mem_cons]; exact ⟨by rw [hx]; rfl, a⟩, b⟩
    · rename_i hx
      obtain ⟨a, b⟩ := ih h
      exact ⟨by simp only [List.forall_mem_cons]; exact ⟨by rw [hx]; rfl, a⟩, b⟩
    · rename_i hx
      simp at h
      have := h.2.1
      simp [Progress.isBehind] at this
    · cases h

/-- The head of a port with the requests before and behind it. -/
theorem State.head_split {s : State} {p : Port} {r : BusRequest} {cls : Classification} {place : HeadPlace}
    (h : s.head p = some ⟨r, .head cls place⟩) :
    ∃ pre post, (s.port p).queue = pre ++ ⟨r, .head cls place⟩ :: post ∧
      ∀ x ∈ pre, Progress.isHead x.progress = false := by
  obtain ⟨pre, post, a, _, c⟩ := find_split h
  exact ⟨pre, post, a, c⟩

/-- A request whose progress is replaced, after which the port moves on: it goes on in its place (R102, R107). -/
theorem queueMoves_of_movesOn {before : List QueuedRequest} {mid after : PortState} {r : BusRequest} {old new : Progress}
    {pre post : List QueuedRequest} (hb : before = pre ++ ⟨r, old⟩ :: post) (hm : mid.queue = pre ++ ⟨r, new⟩ :: post)
    (hn : new.isBehind = false) (hpre : ∀ x ∈ pre, x.progress.isBehind = false) (h : mid.MovesOn after) :
    queueMoves r old new before after.queue := by
  have hq := h.queue
  rw [hm] at hq
  obtain ⟨a, b, hab, h1, h2⟩ := forall₂_append_split hq
  cases h2 with
  | cons hd tl => exact ⟨pre, post, _, hb, by rw [hab, movesOn_fixed h1 hpre, hd.2 hn], movesOn_requests tl⟩

/-- A head whose progress is replaced, after which its port moves on (R102, R107). -/
theorem State.moveOn_queueMoves {s u : State} {p : Port} {r : BusRequest} {cls : Classification} {place : HeadPlace}
    (ho : queueOrdered (s.port p).queue = true) (hh : s.head p = some ⟨r, .head cls place⟩) {new : Progress}
    (hn : new.isBehind = false) (hu : (u.port p).queue = setFirst Progress.isHead new (s.port p).queue) :
    queueMoves r (.head cls place) new (s.port p).queue ((u.moveOn p).port p).queue := by
  obtain ⟨pre, post, hq, hpre⟩ := State.head_split hh
  rw [hq] at ho
  have h1 := (queueOrdered_around ho).1
  refine queueMoves_of_movesOn hq (mid := u.port p) (by rw [hu, hq]; exact setFirst_of_split new rfl hpre) hn
    (fun x hx => ?_) (u.moveOn_same p)
  have := h1 x hx
  simp [Progress.isUnsettled] at this
  exact this.1

/-! ## What decides a placement -/

section
variable {s : State} {g : GroupId} {word : WordIndex}

/-- The merge target is the first entry of the open list with the word (R8). -/
theorem State.mergeTarget_of_first {i : PoolIndex} {pre post : List PoolIndex} {e : Entry}
    (hm : (s.group g).mode = .merge) (ho : (s.group g).openList = pre ++ i :: post)
    (hp : ∀ j ∈ pre, ∀ x, s.entry j = some x → x.word ≠ word) (he : s.entry i = some e) (hw : e.word = word) :
    s.mergeTarget g word = some i := by
  unfold State.mergeTarget
  rw [hm, ho]
  refine List.find?_eq_some_iff_append.mpr ⟨by simp [he, hw], pre, post, rfl, fun j hj => ?_⟩
  cases hx : s.entry j with
  | none => simp
  | some x => simp [hp j hj x hx]

/-- There is no merge target in SEQUENCE mode, nor without an open entry of the word (R10). -/
theorem State.mergeTarget_of_none
    (h : (s.group g).mode = .sequence ∨ ∀ j ∈ (s.group g).openList, ∀ x, s.entry j = some x → x.word ≠ word) :
    s.mergeTarget g word = none := by
  unfold State.mergeTarget
  split
  · rfl
  · rename_i hm
    rcases h with h | h
    · rw [h] at hm; cases hm
    · refine List.find?_eq_none.mpr fun j hj => ?_
      cases hx : s.entry j with
      | none => simp
      | some x => simp [h j hj x hx]

/-- The free entry with the lowest index (R4). -/
theorem State.lowestFree_of_lowest {i : PoolIndex} (h : s.entry i = none)
    (hl : ∀ j : PoolIndex, j < i → (s.entry j).isSome = true) : s.lowestFree = some i := by
  unfold State.lowestFree
  rw [List.find?_eq_some_iff_getElem]
  refine ⟨by simp [h], i.val, by simp, by simp, fun j hj => ?_⟩
  have := hl ⟨j, by omega⟩ hj
  simp [Option.isNone_eq_false_iff.mpr, this]

/-- A full pool has no free entry (R13). -/
theorem State.lowestFree_of_full (h : ∀ j : PoolIndex, (s.entry j).isSome = true) : s.lowestFree = none := by
  unfold State.lowestFree
  refine List.find?_eq_none.mpr fun j _ => ?_
  have := h j
  cases hx : s.entry j <;> simp_all

/-- No allocation at the entry limit or in a full pool (R13). -/
theorem State.allocationIndex_of_full
    (h : (s.group g).entryLimit.toNat ≤ (s.group g).openList.length ∨ ∀ j : PoolIndex, (s.entry j).isSome = true) :
    s.allocationIndex g = none := by
  unfold State.allocationIndex
  rcases h with h | h
  · rw [if_neg (by omega)]
  · rw [State.lowestFree_of_full h]; simp

variable (p : Port) (m : LaneSet) (d : Lanes)

/-- A placement that merges (R8). -/
theorem State.place_of_merge {i : PoolIndex} (h : s.mergeTarget g word = some i) :
    s.place p g word m d =
      ((s.withPool (updateEntries [i] (Entry.mergeWrite p m d) s.pool)).countGroup g fun c =>
        { c with merged := c.merged + 1 }, .merged) := by
  simp [State.place, h]

/-- A placement that allocates (R4). -/
theorem State.place_of_allocate {i : PoolIndex} (h : s.mergeTarget g word = none)
    (hl : (s.group g).openList.length < (s.group g).entryLimit.toNat) (hi : s.lowestFree = some i) :
    s.place p g word m d = ((s.withPool (s.pool.set i (some (Entry.allocate p g word m d)))).withGroup g
      { s.group g with
        openList := (s.group g).openList ++ [i]
        counts := { (s.group g).counts with allocated := (s.group g).counts.allocated + 1 } }, .allocated) := by
  simp only [State.place, h, State.allocationIndex, hl, if_true, hi]

/-- A placement refused under REJECT (R14). -/
theorem State.place_of_reject (h : s.mergeTarget g word = none) (ha : s.allocationIndex g = none)
    (hp : (s.group g).policy = .reject) :
    s.place p g word m d =
      ((s.countGroup g fun c => { c with rejections := c.rejections + 1 }).raise .stageReject, .rejected) := by
  simp only [State.place, h, ha, hp]

/-- A placement that has to wait under HOLD (R15). -/
theorem State.place_of_hold (h : s.mergeTarget g word = none) (ha : s.allocationIndex g = none)
    (hp : (s.group g).policy = .hold) : s.place p g word m d = (s, .heldBack) := by
  simp only [State.place, h, ha, hp]

end

/-! ## Causes through recordings -/

/-- A cause that is raised is set. -/
theorem State.raise_sets (s : State) (c : Cause) (h : c.member < 19) : (s.raise c).ev.causes.getLsbD c.member = true := by
  have := State.raise_bit s c ⟨c.member, h⟩
  simp only at this
  rw [this]
  simp

/-- A record keeps every sticky cause that is set (R155). -/
theorem State.handRecord_keeps (s : State) (r : CaptureRecord) (i : Fin 18) (h : s.ev.causes.getLsbD i.val = true) :
    (s.handRecord r).ev.causes.getLsbD i.val = true := by
  unfold State.handRecord
  split
  · have := State.refreshReady_bit
      (State.withCap { s.cap with queue := s.cap.queue ++ [⟨r, s.cap.lost⟩], lost := 0 } s) ⟨i.val, by omega⟩
    simp only at this
    rw [this, if_neg (by omega)]
    exact h
  · have := State.raise_bit (State.withCap { s.cap with lost := saturatingSucc s.cap.lost } s) .captureLost ⟨i.val, by omega⟩
    simp only at this
    rw [this]
    simp only [State.withCap_ev, h, Bool.true_or]

/-- Recordings keep every sticky cause that is set (R155). -/
theorem Recordings.keeps_cause {s t : State} (h : Recordings s t) (i : Fin 18) (hb : s.ev.causes.getLsbD i.val = true) :
    t.ev.causes.getLsbD i.val = true := by
  refine h.keeps (P := fun s => s.ev.causes.getLsbD i.val = true) ?_ hb
  intro s t hs hr
  cases hr with
  | elsewhere he hc => rw [he]; exact hs
  | raise c hc =>
    have := State.raise_bit s c ⟨i.val, by omega⟩
    simp only at this
    rw [this, hs]
    rfl
  | hit hh =>
    unfold State.takeHit
    dsimp only
    repeat' split
    all_goals first
      | exact hs
      | exact State.handRecord_keeps _ _ i hs
  | record r => exact State.handRecord_keeps _ _ i hs

/-- Outside ACTIVE, heads that are brought in give the capture unit no hit (R91, R113). -/
theorem State.bringHeads_quiet {p : Port} (n : Nat) : ∀ {s : State}, s.op ≠ .active →
    (s.bringHeads p n).cap = s.cap ∧ (s.bringHeads p n).ev = s.ev := by
  induction n with
  | zero => exact fun _ => ⟨rfl, rfl⟩
  | succ n ih =>
    intro s h
    unfold State.bringHeads
    split
    · rename_i r _ _
      have hc : s.classify p r.request.word = Classification.unwindowed := by
        unfold State.classify
        split <;> simp_all
      have h1 : (s.enterHead p r.request).cap = s.cap ∧ (s.enterHead p r.request).ev = s.ev := by
        unfold State.enterHead
        rw [hc]
        cases r.request <;> simp [Classification.unwindowed, State.hitFor]
      have h2 := ih (s := s.enterHead p r.request) (by simpa using h)
      exact ⟨h2.1.trans h1.1, h2.2.trans h1.2⟩
    · exact ⟨rfl, rfl⟩

end Sys2Proof.Machine
end

