-- ==== Sys2Proof/Tests/Slice0.lean ====
section
/-! SUPPORT. Tests of the model by the manual's own worked sequences, tables and examples, and, for every statement with
hypotheses, a state and operands that meet them all (the theorems named test_meets_...). -/

namespace Sys2Proof.Tests

open Sys2Proof Sys2Proof.Machine

-- One theorem after another: many kernel evaluations at once would each take a thread and its stack.
set_option Elab.async false

/-! ## Small states -/

/-- One command answers a next state that passes a check. -/
def gives (c : Instr) (s : State) (check : State → Bool) : Bool :=
  match exec c s with
  | .next t => check t
  | .fault _ => false
  | .refused _ => false

/-- The result of one command. -/
def answers (c : Instr) (s : State) (code : ResultCode) (data : List Byte) : Bool :=
  gives c s fun t => decide (t.mgmt.result = some ⟨code, data⟩)

/-- A property of an entry, from a check of it. -/
theorem entry_all {s : State} {i : PoolIndex} {P : Entry → Prop} [DecidablePred P]
    (h : (s.entry i).all (fun e => decide (P e)) = true) : ∀ x, s.entry i = some x → P x := by
  intro x hx
  rw [hx] at h
  simpa using h

def quiet : State := { State.reset with op := .bypass }

def live : State := { State.reset with op := .active }

/-- The timebase RUNNING at a cycle and a counter value. -/
def atTick (s : State) (cycle : BitVec 32) (counter : BitVec 16) : State :=
  { s with tb := { s.tb with running := true, cycle := cycle, counter := counter } }

/-- One entry of the pool. -/
def put (i : PoolIndex) (e : Entry) (s : State) : State := { s with pool := s.pool.set i (some e) }

def bytes8 (b : Byte) : Lanes := Vector.replicate 8 b

def entryOf (g : GroupId) (word : WordIndex) (state : EntryState) (gen : Generation) : Entry :=
  ⟨word, 0xFF, bytes8 7, g, gen, state, 1, 1⟩

def stagedWindow (base : Address) (ports : PortSet) (g : GroupId) (view : ReadView) : Window :=
  ⟨true, base, base, ports, .staged g view, none, 0⟩

/-- The queue of a port. -/
def queued (p : Port) (q : List QueuedRequest) (s : State) : State := s.withPort p { s.port p with queue := q }

def toGroup (g : GroupId) : Classification := ⟨.staged g .committed, some 2, none⟩

/-- Group 0 enabled and TIMER at offset 900 with log commits on and a budget of 200 µs, group 1 enabled, EXTERNAL and in
SEQUENCE mode, as in 02, 2.9. -/
def twoGroups : State :=
  (live.withGroup 0 { Group.reset with
    enabled := true, trigger := .timer, slotOffset := 900, sequence := 17, logCommits := true, drainBudget := 200 }).withGroup
      1 { Group.reset with enabled := true, trigger := .external, mode := .sequence, sequence := 4 }

/-- The stamp (7, 899) of 02, 2.9, with the open generations of both groups. -/
def cycle7 : State :=
  let s := put 0 (entryOf 0 1 .staged .collecting) (put 1 (entryOf 0 2 .staged .collecting)
    (put 2 (entryOf 0 3 .staged .collecting) (put 3 (entryOf 1 4 .staged .collecting) twoGroups)))
  atTick ((s.withGroup 0 { s.group 0 with openList := [0, 1, 2] }).withGroup 1 { s.group 1 with openList := [3] }) 7 899

/-! ## The terms a command can be -/

theorem test_write_without_a_lane_is_ill_formed :
    (Instr.requestAccept .a (.write 5 0 (bytes8 0) 0)).wellFormed = false ∧
    (Instr.requestAccept .a (.write 5 1 (bytes8 0) 0)).wellFormed = true := by decide

theorem test_unknown_command_names_none :
    (Instr.unknownCommand 0x14).wellFormed = false ∧ (Instr.unknownCommand 0x15).wellFormed = true ∧
    (Instr.unknownCommand 0).wellFormed = true := by decide

theorem test_unknown_item_names_none :
    (Instr.putSettingUnknownItem 6 0).wellFormed = false ∧ (Instr.putSettingUnknownItem 7 0).wellFormed = true := by decide

/-- An ill-formed term is refused by name. -/
theorem test_ill_formed_terms_are_refused :
    (∃ m, exec (.requestAccept .a (.write 5 0 (bytes8 0) 0)) quiet = .refused (.illFormed m)) ∧
    (∃ m, exec (.unknownCommand 0x14) quiet = .refused (.illFormed m)) ∧
    ∃ m, exec (.putSettingUnknownItem 6 0) quiet = .refused (.illFormed m) := ⟨⟨_, rfl⟩, ⟨_, rfl⟩, ⟨_, rfl⟩⟩

/-! ## Frames, written out from the tables of chapter 10 -/

/-- The frame of 10.4: period 900 is 84h 03h. -/
theorem test_frame_period : decodeFrame [0x02, 0x03, 0x00, 0x84, 0x03] = some (.putSettingPeriod 0 900) ∧
    frameRow [0x02, 0x03, 0x00, 0x84] 39 = .partialFrame 39 := by decide

theorem test_frames_of_inspection :
    decodeFrame [0x01, 0x25, 0x03] = some (.getSetting 37 3) ∧ decodeFrame [0x06, 0x07] = some (.readWindow 7) ∧
    decodeFrame [0x07, 0x09] = some (.readStatus 9) ∧ decodeFrame [0x08, 0x3F] = some (.readEntry 63) ∧
    decodeFrame [0x09] = some .popCapture ∧ decodeFrame [0x14] = some .readIdentity := by decide

theorem test_frames_of_groups :
    decodeFrame [0x0A, 0x03] = some (.commitNow 3) ∧ decodeFrame [0x0B, 0x02] = some (.abortGroup 2) ∧
    decodeFrame [0x02, 0x12, 0x01, 0xB6, 0x03] = some (.putSettingSlotOffset 1 950) ∧
    decodeFrame [0x02, 0x16, 0x00, 0xFF, 0x0F] = some (.putSettingHoldLimit 0 4095) := by decide

theorem test_frames_of_capture :
    decodeFrame [0x0C, 0x02] = some (.rearm 2) ∧ decodeFrame [0x02, 0x22, 0x01, 0x02] = some (.putSettingChannelPrescale 1 2) ∧
    decodeFrame ([0x02, 0x25, 0x01] ++ [1, 0, 0, 0, 0, 0, 0, 0] ++ [0xFF, 0, 0, 0, 0, 0, 0, 0]) =
      some (.putSettingMatch 1 #v[1, 0, 0, 0, 0, 0, 0, 0] #v[0xFF, 0, 0, 0, 0, 0, 0, 0]) := by decide

/-- Window 2 of 5.3, on port A: 40000h to 40FFFh, STAGED, group 0, COMMITTED, no capture. -/
theorem test_frame_put_window :
    decodeFrame [0x03, 2, 0x00, 0x00, 0x04, 0x00, 0x00, 0x00, 0x00, 0x04, 0x00, 0x00, 1, 1, 0, 0, 0, 0] =
      some (.putWindow 2 0x40000 0x40000 1 1 0 0 0 0) := by decide

theorem test_frames_of_the_bridge :
    decodeFrame [0x04, 1] = some (.enableWindow 1) ∧ decodeFrame [0x05, 1] = some (.disableWindow 1) ∧
    decodeFrame [0x0D] = some .startTimebase ∧ decodeFrame [0x0E] = some .stopTimebase ∧
    decodeFrame [0x0F] = some .enableBridge ∧ decodeFrame [0x10] = some .disableBridge ∧
    decodeFrame [0x11] = some .resetDatapath ∧ decodeFrame [0x12, 1, 0, 4] = some (.clearCauses 0x040001) ∧
    decodeFrame [0x13, 0, 0x20, 0] = some (.setEnables 0x002000) := by decide

theorem test_frames_without_a_command :
    decodeFrame [0x15, 1, 2] = some (.unknownCommand 0x15) ∧
    decodeFrame [0x02, 0x07, 0x00] = some (.putSettingUnknownItem 7 0) ∧ frameRow [] 0 = .partialFrame 0 := by decide

/-! ## The pins of the management port -/

/-- R166: the frame of POP_CAPTURE is 09h, 0000 1001 with the most significant bit first. -/
theorem test_bits_travel_from_the_most_significant :
    byteBits 0x09 = [false, false, false, false, true, false, false, true] ∧
    sdiBytes [false, false, false, false, true, false, false, true, true] = [0x09] := by decide

/-- The rows a frame of these bits brings to the queue, from the falling to the rising edge of CS_N. -/
def frameOf (bits : List Bool) (s : State) : List Instr := (s.pinEdges (.csFall :: clockBits bits ++ [.csRise])).pending

/-- R166, R167: the 40 bits of the frame of 10.4 are one row, whatever bits follow; 39 of them are a partial frame; CS_N alone
is none with an edge of SCK; bits clocked while CS_N is high are ignored. -/
theorem test_bits_of_a_frame :
    let bits := ([0x02, 0x03, 0x00, 0x84, 0x03] : List Byte).flatMap byteBits
    frameOf (bits ++ [true, true]) quiet = [.putSettingPeriod 0 900] ∧ frameOf (bits.take 39) quiet = [.partialFrame 39] ∧
    frameOf [] quiet = [.partialFrame 0] ∧ (quiet.pinEdges (clockBits bits)) = quiet := by decide +kernel

/-- R166: SDO is not driven while CS_N is high; READ_IDENTITY's answer is 00h, 00h, 41h, and so on, bit by bit. -/
theorem test_sdo :
    quiet.sdo = none ∧ (quiet.pinEdge .csFall).sdo = some false ∧
    (List.range 8).map (fun n =>
      let t := quiet.pinEdges (.csFall :: clockBits (byteBits 0x14 ++ List.replicate (8 + n) true))
      ({ t with mgmt := { t.mgmt with result := some ⟨.accepted, [0x41, 0x0A, 0x40, 0x72, 0x01]⟩ } } : State).sdo) =
      [some false, some true, some false, some false, some false, some false, some false, some true] := by decide +kernel

/-- R167: a frame in progress is abandoned at RESET_N, and one under a CS_N still low at the release is not counted. -/
theorem test_frame_over_a_reset :
    let low : State := quiet.pinEdges (.csFall :: clockBits [true, false, true])
    gives .resetNAssert low (fun t => decide (t.mgmt.pins.bits = [] ∧ t.mgmt.frameErrors = 0) &&
      gives .resetNRelease t fun u => !u.mgmt.listening &&
        gives (.partialFrame 5) u fun v => v.mgmt.listening && decide (v.mgmt.frameErrors = 0) &&
          gives (.partialFrame 5) v fun w => decide (w.mgmt.frameErrors = 1)) = true := by decide +kernel

/-! ## Resets and time -/

theorem test_reset_line :
    gives .resetNAssert cycle7 (fun t => t.resetLow && decide (t.op = .init) && decide ((t.group 0).openList = [])) = true ∧
    gives .resetNRelease { State.reset with resetLow := true } (fun t => !t.resetLow && decide (t.op = .init) &&
      t.mgmt.listening) = true := by
  decide +kernel

theorem test_init_ends_at_twenty :
    gives .initComplete { State.reset with tb := { Timebase.reset with usClock := 20 } } (fun t => decide (t.op = .bypass)) = true ∧
    gives .initComplete { State.reset with tb := { Timebase.reset with usClock := 19 } } (fun t => decide (t.op = .init)) = true := by
  decide +kernel

/-- R118: the µs clock wraps from 4294967295 to 0. -/
theorem test_us_clock_wraps :
    gives .usClockAdvance { quiet with tb := { quiet.tb with usClock := 4294967295 } } (fun t => decide (t.tb.usClock = 0)) =
      true := by decide +kernel

/-- 02, 2.9, (7, 900): group 0 commits sequence 18; COMMIT_BUSY is asserted. -/
theorem test_counter_step_reaches_the_slot :
    gives .counterStep cycle7 (fun t =>
      decide (t.tb.counter = 900 ∧ (t.group 0).sequence = 18 ∧ (t.group 0).drainList = [0, 1, 2] ∧
        (t.group 0).lastCommit = some ⟨7, 900, true⟩ ∧ (t.group 1).openList = [3]) &&
      decide (t.drain.queue.map (fun d => (d.group, d.sequence, d.budget)) = [(0, 18, 200)]) && t.drain.commitBusy) = true := by
  decide +kernel

/-- 02, 2.9, (7, 905): the edge commits the EXTERNAL group 1 alone. -/
theorem test_commit_in_reaches_external_groups :
    gives .commitInEdge (atTick cycle7 7 905) (fun t =>
      decide ((t.group 1).sequence = 5 ∧ (t.group 1).lastCommit = some ⟨7, 905, true⟩ ∧ (t.group 0).sequence = 17)) = true := by
  decide +kernel

/-- 02, 2.9, (7, 930): an edge that reaches a draining group is a missed slot. -/
theorem test_commit_in_can_be_missed :
    gives .commitInEdge (cycle7.withGroup 1 { cycle7.group 1 with sequence := 5, drainList := [3], openList := [] })
      (fun t => decide ((t.group 1).sequence = 5 ∧ (t.group 1).counts.missedSlots = 1) && t.ev.causes.getLsbD 1) = true := by
  decide +kernel

/-- 07, 7.10, (12, 999): the pending period 900 is applied and no group is out of range. -/
theorem test_natural_wrap :
    gives .naturalWrap { atTick live 12 999 with tb := { (atTick live 12 999).tb with pendingPeriod := some 900 } }
      (fun t => decide (t.tb.counter = 0 ∧ t.tb.cycle = 13 ∧ t.tb.period = 900 ∧ t.tb.pendingPeriod = none) &&
        !t.ev.causes.getLsbD 15) = true := by decide +kernel

/-- 07, 7.10, (13, 870): the edge truncates the cycle, and the applied offset 950 is out of the range of 900. -/
def cycle13 : State :=
  let s := live.withGroup 1 { Group.reset with enabled := true, trigger := .timer, slotOffset := 800, pendingOffset := some 950 }
  { s with tb := { s.tb with running := true, cycle := 13, counter := 870, period := 900, syncEnable := true } }

theorem test_sync_in_truncates :
    gives .syncInEdge cycle13 (fun t =>
      decide (t.tb.counter = 0 ∧ t.tb.cycle = 14 ∧ t.tb.truncated = 1 ∧ (t.group 1).slotOffset = 950) &&
        (t.group 1).outOfRange && t.ev.causes.getLsbD 15 && t.ev.causes.getLsbD 16) = true := by decide +kernel

/-- R128: at period-1 the cycle is complete and is not truncated. -/
theorem test_sync_in_at_the_end :
    gives .syncInEdge { cycle13 with tb := { cycle13.tb with counter := 899 } } (fun t =>
      decide (t.tb.cycle = 14 ∧ t.tb.truncated = 0) && !t.ev.causes.getLsbD 16) = true := by decide +kernel

/-- Both edge inputs high since the release of RESET_N (R182). -/
def highAtRelease (s : State) : State := { s with inputs := ⟨⟨true, .highFromRelease⟩, ⟨true, .highFromRelease⟩⟩ }

/-- The next state of a step, or the state itself. -/
def stepped (s : State) : State :=
  match step s with
  | .next t => t
  | _ => s

/-- R182: a line already high at the release gives no edge until it has been seen low and then high again; one that stays high
gives one edge, and its falling edge none. -/
theorem test_commit_in_levels :
    let released := stepped { ({ cycle7 with resetLow := true } : State).driveCommitIn true with pending := [.resetNRelease] }
    let active := { cycle7 with inputs := released.inputs }
    let low := stepped (active.driveCommitIn false)
    let edge := stepped (low.driveCommitIn true)
    ((stepped active).group 1).sequence = 4 ∧ gives .commitInEdge active (fun t => decide (t = active)) = true ∧
    (low.group 1).sequence = 4 ∧ (edge.group 1).sequence = 5 ∧ ((stepped edge).group 1).sequence = 5 ∧
    ((stepped edge).group 1).counts.missedSlots = 0 ∧ ((stepped (edge.driveCommitIn false)).group 1).sequence = 5 := by
  decide +kernel

/-- R182: a SYNC_IN edge sampled wraps the counter; a line high since the release does not. -/
theorem test_sync_in_levels :
    (stepped (cycle13.driveSyncIn true)).tb.cycle = 14 ∧ (stepped (highAtRelease cycle13)).tb.cycle = 13 := by decide +kernel

/-! ## Settings -/

theorem test_global_settings :
    gives (.putSettingReferenceFrequency 0 200) quiet (fun t => decide (t.tb.refFreq = 200)) = true ∧
    answers (.putSettingReferenceFrequency 0 9) quiet .badArgument [] = true ∧
    gives (.putSettingSyncEnable 0 1) quiet (fun t => t.tb.syncEnable) = true ∧
    gives (.putSettingGrantPolicy 0 2) quiet (fun t => decide (t.arb.policy = .drainFirst)) = true ∧
    answers (.putSettingGrantPolicy 0 3) quiet .badArgument [] = true ∧
    gives (.putSettingCaptureThreshold 0 32) quiet (fun t => decide (t.cap.threshold = 32)) = true ∧
    answers (.putSettingCaptureThreshold 0 33) quiet .badArgument [] = true := by decide +kernel

/-- 10.4: a period written while RUNNING is pending, and GET_SETTING returns 1000 (03E8h) until the wrap. -/
theorem test_period_pends :
    gives (.putSettingPeriod 0 900) (atTick live 12 950) (fun t =>
      decide (t.tb.pendingPeriod = some 900) && answers (.getSetting 3 0) t .accepted [0xE8, 0x03]) = true ∧
    gives (.putSettingTimebasePrescale 0 49) quiet (fun t => decide (t.tb.prescale = 49)) = true ∧
    gives (.putSettingSlotOffset 1 950) (atTick live 13 850) (fun t => decide ((t.group 1).pendingOffset = some 950)) = true := by
  decide +kernel

theorem test_group_settings :
    gives (.putSettingGroupEnabled 3 1) quiet (fun t => (t.group 3).enabled) = true ∧
    gives (.putSettingTriggerSource 3 1) quiet (fun t => decide ((t.group 3).trigger = .external)) = true ∧
    gives (.putSettingMode 3 1) quiet (fun t => decide ((t.group 3).mode = .sequence)) = true ∧
    gives (.putSettingFullPolicy 3 0) quiet (fun t => decide ((t.group 3).policy = .hold)) = true ∧
    gives (.putSettingEntryLimit 3 64) quiet (fun t => decide ((t.group 3).entryLimit = 64)) = true ∧
    gives (.putSettingHoldLimit 3 4095) quiet (fun t => decide ((t.group 3).holdLimit = 4095)) = true ∧
    gives (.putSettingDrainBudget 3 4095) quiet (fun t => decide ((t.group 3).drainBudget = 4095)) = true ∧
    gives (.putSettingLogCommits 3 1) quiet (fun t => (t.group 3).logCommits) = true := by decide +kernel

theorem test_group_settings_are_refused :
    answers (.putSettingMode 0 1) cycle7 .busy [] = true ∧ answers (.putSettingEntryLimit 0 65) cycle7 .badArgument [] = true ∧
    answers (.putSettingHoldLimit 4 1) cycle7 .badArgument [] = true ∧
    answers (.putSettingDrainBudget 0 4096) cycle7 .badArgument [] = true ∧
    answers (.putSettingGroupEnabled 0 1) State.reset .badState [] = true := by decide +kernel

theorem test_channel_settings :
    gives (.putSettingChannelEnabled 1 1) quiet (fun t => decide ((t.channel 1).state = .armed)) = true ∧
    gives (.putSettingDirection 1 2) quiet (fun t => decide ((t.channel 1).direction = .both)) = true ∧
    gives (.putSettingChannelPrescale 1 2) quiet (fun t => decide ((t.channel 1).prescale = 2)) = true ∧
    gives (.putSettingGate 1 1) quiet (fun t => (t.channel 1).gate) = true ∧
    gives (.putSettingRearmAtWrap 1 1) quiet (fun t => (t.channel 1).rearmAtWrap) = true ∧
    gives (.putSettingMatch 1 (bytes8 1) (bytes8 2)) quiet (fun t => decide ((t.channel 1).matchMask = bytes8 2)) = true ∧
    gives (.putSettingRecordData 1 1) quiet (fun t => (t.channel 1).recordData) = true := by decide +kernel

theorem test_unknown_item : answers (.putSettingUnknownItem 7 0) quiet .badArgument [] = true ∧
    answers (.putSettingUnknownItem 7 0) State.reset .badState [] = true := by decide +kernel

/-! ## Windows (05, 5.3) -/

def fourWindows : State :=
  { live.withGroup 0 { Group.reset with enabled := true } with
    windows := #v[Window.reset, ⟨true, 0x20000, 0x2F000, 3, .pass, some 3, 0⟩,
      stagedWindow 0x40000 1 0 .committed, Window.reset, stagedWindow 0x40000 2 0 .pending, Window.reset,
      ⟨false, 0x40000, 0x40000, 3, .staged 1 .pending, some 0, 0⟩, Window.reset] }

theorem test_one_request_four_classifications :
    fourWindows.classify .a (0x40208 / 8) = ⟨.staged 0 .committed, some 2, none⟩ ∧
    fourWindows.classify .b (0x40208 / 8) = ⟨.staged 0 .pending, some 4, none⟩ ∧
    fourWindows.classify .b (0x21000 / 8) = ⟨.pass, some 1, some 3⟩ ∧
    fourWindows.classify .a (0x50000 / 8) = ⟨.pass, none, none⟩ ∧
    ({ fourWindows with op := .bypass } : State).classify .a (0x40208 / 8) = ⟨.pass, none, none⟩ := by decide +kernel

/-- Window 6 overlaps windows 2 and 4 and shares a port with each; 2 is the lowest-numbered. -/
theorem test_enable_window_finds_the_overlap : answers (.enableWindow 6) fourWindows .badArgument [1, 2] = true ∧
    answers (.enableWindow 8) fourWindows .badArgument [0, 0] = true := by decide +kernel

theorem test_disable_window :
    gives (.disableWindow 1) fourWindows (fun t => !(t.window 1).enabled) = true ∧
    answers (.disableWindow 2) (put 0 (entryOf 0 (0x40FF8 / 8) .staged .collecting) fourWindows) .busy [] = true := by
  decide +kernel

theorem test_put_window :
    gives (.putWindow 2 0x40000 0x41000 1 1 3 1 1 2) quiet (fun t =>
      decide (t.window 2 = ⟨false, 0x40000, 0x41000, 1, .staged 3 .pending, some 2, 0⟩)) = true ∧
    answers (.putWindow 2 0x40000 0x41000 1 1 3 1 1 2) fourWindows .badState [] = true := by decide +kernel

theorem test_read_window :
    answers (.readWindow 2) fourWindows .accepted
      [1, 0x00, 0x00, 0x04, 0x00, 0x00, 0x00, 0x00, 0x04, 0x00, 0x00, 1, 1, 1, 0, 1, 0, 0, 0, 0] = true ∧
    answers (.readWindow 8) quiet .badArgument (List.replicate 20 0) = true := by decide +kernel

/-! ## Ports and the staging table (01, 1.8; 06, 6.13) -/

/-- The head of port A is a staged write of 40100h, lanes 0 to 3, in passage of window 2, as in step 1 of 01, 1.8. -/
def placing (word : WordIndex) (m : LaneSet) (d : Lanes) (s : State) : State :=
  queued .a [⟨.write word m d 3, .head (toGroup 0) (.passage false)⟩]
    ((s.withWindow 2 { stagedWindow 0x40000 3 0 .committed with passage := 1 }).withGroup 0
      { s.group 0 with enabled := true })

def step1 : State := placing (0x40100 / 8) 0x0F #v[0x11, 0x22, 0x33, 0x44, 0, 0, 0, 0] live

theorem test_placement_allocates :
    gives (.stagedWritePlacement .a) step1 (fun t =>
      decide (t.entry 0 = some ⟨0x40100 / 8, 0x0F, #v[0x11, 0x22, 0x33, 0x44, 0, 0, 0, 0], 0, .collecting, .staged, 1, 1⟩ ∧
        (t.group 0).openList = [0] ∧ (t.port .a).queue.map (·.progress) = [.answered ⟨.okay, none⟩] ∧
        (t.window 2).passage = 0)) = true := by decide +kernel

/-- Step 2 of 01, 1.8, from the other port: lanes 2 and 3 are replaced, 4 and 5 added. -/
def step2 : State :=
  placing (0x40100 / 8) 0x3C #v[0, 0, 0xAA, 0xBB, 0xCC, 0xDD, 0, 0]
    (put 0 ⟨0x40100 / 8, 0x0F, #v[0x11, 0x22, 0x33, 0x44, 0, 0, 0, 0], 0, .collecting, .staged, 2, 1⟩
      (live.withGroup 0 { Group.reset with openList := [0], counts := { GroupCounts.reset with allocated := 1 } }))

theorem test_placement_merges :
    gives (.stagedWritePlacement .a) step2 (fun t =>
      decide (t.entry 0 = some ⟨0x40100 / 8, 0x3F, #v[0x11, 0x22, 0xAA, 0xBB, 0xCC, 0xDD, 0, 0], 0, .collecting, .staged, 3, 2⟩ ∧
        (t.group 0).counts.merged = 1 ∧ (t.group 0).openList = [0])) = true := by decide +kernel

/-- A write that finds its group at the entry limit, as in step 7 of 01, 1.8. -/
def atLimit (policy : FullPolicy) : State :=
  let s := placing (0x40118 / 8) 0xFF (bytes8 1) { live with tb := { live.tb with usClock := 1000 } }
  put 0 (entryOf 0 (0x40100 / 8) .staged .collecting)
    (s.withGroup 0 { Group.reset with enabled := true, policy := policy, holdLimit := 200, entryLimit := 1, openList := [0] })

theorem test_placement_is_held :
    gives (.stagedWritePlacement .a) (atLimit .hold) (fun t => decide (t.holds = [⟨.a, 0, 1000, 200⟩] ∧
      (t.port .a).queue.map (·.progress) = [.head (toGroup 0) .held] ∧ (t.window 2).passage = 1)) = true ∧
    gives (.stagedWritePlacement .a) (atLimit .reject) (fun t => decide ((t.port .a).counts.errRejected = 1 ∧
      (t.window 2).passage = 0) && t.ev.causes.getLsbD 12) = true := by decide +kernel

/-- R65: the first tag after RESET_N is 0, the count of grants before this one (notes/assumptions/31.md). -/
theorem test_first_tag_is_zero :
    gives .grant (queued .a [⟨.read 5 9, .head ⟨.pass, none, none⟩ .waiting⟩] live) (fun t =>
      decide (t.arb.outstanding.map (·.sent.tag) = [0] ∧ t.arb.grants = 1)) = true := by decide +kernel

/-- A request of port A held since 1003 with a limit of 50, as in 06, 6.13. -/
def held (now : BitVec 32) : State :=
  { queued .a [⟨.write (0x40110 / 8) 0xFF (bytes8 1) 4, .head (toGroup 0) .held⟩] live with
    holds := [⟨.a, 0, 1003, 50⟩], tb := { live.tb with usClock := now } }

theorem test_hold_expires_at_its_limit :
    gives (.holdLimitExpiry .a) (held 1053) (fun t => decide (t.holds = [] ∧ (t.group 0).counts.holdTimeouts = 1 ∧
      (t.port .a).lastError = some ⟨.holdTimeout, .write, 0x40110 / 8, 4, ⟨0, 0, false⟩⟩) && t.ev.causes.getLsbD 13) = true ∧
    gives (.holdLimitExpiry .a) (held 1052) (fun t => decide (t.holds.length = 1)) = true := by decide +kernel

/-- 06, 6.13, 1000 and 1004: a pass read waits at the arbiter; a fifth request waits on the bus. -/
theorem test_request_accept :
    gives (.requestAccept .a (.read (0x21000 / 8) 1)) fourWindows (fun t =>
      decide ((t.port .a).queue = [⟨.read (0x21000 / 8) 1, .head ⟨.pass, some 1, some 3⟩ .waiting⟩] ∧
        (t.port .a).counts.requests = 1)) = true ∧
    gives (.requestAccept .a (.read 5 5)) (queued .a (List.replicate 4 ⟨.read 5 1, .answered ⟨.okay, none⟩⟩) live)
      (fun t => decide ((t.port .a).waiting = [.read 5 5] ∧ (t.port .a).counts.requests = 0)) = true := by decide +kernel

theorem test_response_taken :
    gives (.responseTaken .a) (queued .a [⟨.read 5 1, .answered ⟨.okay, some (bytes8 1)⟩⟩, ⟨.read 6 2, .onM (toGroup 0)⟩] live)
      (fun t => decide ((t.port .a).queue.map (·.request) = [.read 6 2])) = true := by decide +kernel

/-- 04, 4.2: entries 6, 2 and 9 of word 50000h, in list order. -/
def duplicates : State :=
  let e := entryOf 0 (0x50000 / 8) .queued (.draining 1)
  (put 6 { e with data := #v[1, 2, 3, 4, 5, 6, 7, 8] } (put 2 { e with mask := 0x03, data := #v[0x11, 0x12, 0, 0, 0, 0, 0, 0] }
    (put 9 { e with mask := 0x06, data := #v[0, 0x21, 0x22, 0, 0, 0, 0, 0] } live))).withGroup 0
      { Group.reset with enabled := true, mode := .sequence, sequence := 1, drainList := [6, 2, 9] }

theorem test_selection_among_duplicates :
    duplicates.forwardedWord 0 .committed (0x50000 / 8) (bytes8 0) = #v[0x11, 0x21, 0x22, 4, 5, 6, 7, 8] ∧
    duplicates.fullyCovered 0 .committed (0x50000 / 8) = true ∧ duplicates.fullyCovered 0 .committed 5 = false := by
  decide +kernel

/-! ## The drain engine and the arbiter (03, 3.10) -/

/-- Port B's read b waits, generation 0:30 has entries 4, 7 and 9 to issue, and the pointer stands where it is put. -/
def draining (pointer : Requester) : State :=
  let e := entryOf 0 (0x40100 / 8) .queued (.draining 30)
  let s := put 4 e (put 7 { e with word := 0x40108 / 8 } (put 9 { e with word := 0x40110 / 8 } live))
  queued .b [⟨.read 9 2, .head ⟨.pass, none, none⟩ .waiting⟩]
    { s.withGroup 0 { Group.reset with enabled := true, sequence := 30, drainList := [4, 7, 9], logCommits := true } with
      drain := ⟨[⟨0, 30, ⟨1, 2, true⟩, 5000, 20, .issuing, some 4, 0, 0, 0, false⟩], [], true⟩
      arb := { Arbiter.reset with pointer := pointer } }

theorem test_grant_rotates :
    gives .grant (draining (.port .b)) (fun t => decide (t.arb.pointer = .drain ∧
      t.arb.outstanding.map (·.owner) = [.port .b 2 .read] ∧ (t.port .b).counts.passReads = 1)) = true ∧
    gives .grant (draining .drain) (fun t => decide (t.arb.pointer = .port .a ∧
      t.arb.outstanding = [⟨.drain 0 4, .write (0x40100 / 8) 0xFF (bytes8 7) 0⟩]) && t.entryIs .writing 4 &&
      decide (t.drain.queue.map (fun d => (d.next, d.outstanding)) = [(some 7, 1)])) = true := by decide +kernel

/-- The last write of generation 0:30, with one entry drained and one failed before it, as D9 at 5019. -/
def closing : State :=
  let s := put 9 (entryOf 0 (0x40110 / 8) .writing (.draining 30)) live
  { s.withGroup 0 { Group.reset with enabled := true, sequence := 30, drainList := [9], logCommits := true } with
    drain := ⟨[⟨0, 30, ⟨1, 2, true⟩, 5000, 20, .closing, none, 1, 1, 1, false⟩], [], true⟩
    arb := { Arbiter.reset with outstanding := [⟨.drain 0 9, .write (0x40110 / 8) 0xFF (bytes8 7) 0⟩] } }

theorem test_last_acknowledgement_retires :
    gives (.memoryResponse .okay (bytes8 0) 0) closing (fun t =>
      decide (t.drain = ⟨[], [], false⟩ ∧ t.entry 9 = none ∧ (t.group 0).counts.drained = 1 ∧
        t.cap.queue.map (·.record) = [.commit 0 30 ⟨1, 2, true⟩ 2 1 false])) = true := by decide +kernel

/-- 3.10, 5016: an ERROR is counted failed, keeps the first-fault address, and sets DRAIN_FAULT of its group. -/
theorem test_failed_drain_write :
    gives (.memoryResponse .error (bytes8 0) 0) closing (fun t =>
      decide ((t.group 0).counts.failed = 1 ∧ (t.group 0).firstFault = some (0x40110 / 8)) && t.ev.causes.getLsbD 8) =
      true := by decide +kernel

/-- R57, R58: the budget of 20 expires at 5020, not at 5019. -/
theorem test_budget_expires :
    gives (.drainBudgetExpiry 0) { draining .drain with tb := { live.tb with usClock := 5020 } } (fun t =>
      t.arb.escalated && t.ev.causes.getLsbD 4 && decide ((t.group 0).counts.lateDrains = 1)) = true ∧
    gives (.drainBudgetExpiry 0) { draining .drain with tb := { live.tb with usClock := 5019 } } (fun t =>
      !t.arb.escalated) = true := by decide +kernel

/-! ## Commands on groups, the timebase and the bridge -/

/-- 02, 2.9, (8, 602): group 0 is draining and BUSY, group 1 is committed. -/
theorem test_commit_now :
    answers (.commitNow 3) (cycle7.withGroup 0 { cycle7.group 0 with openList := [], drainList := [0, 1, 2] }) .accepted
      [2, 1] = true ∧
    answers (.commitNow 16) cycle7 .badArgument [0, 0] = true ∧ answers (.commitNow 3) quiet .badState [0, 0] = true := by
  decide +kernel

/-- 02, 2.9, (8, 350): the abort frees the open entries and reports their number. -/
theorem test_abort_group :
    gives (.abortGroup 0) cycle7 (fun t => decide (t.mgmt.result = some ⟨.accepted, [3]⟩ ∧ (t.group 0).openList = [] ∧
      (t.group 0).counts.discarded = 3 ∧ t.entry 1 = none ∧ (t.group 0).sequence = 17) && (t.entry 3).isSome) = true ∧
    answers (.abortGroup 2) cycle7 .badState [0] = true := by decide +kernel

theorem test_timebase_starts_and_stops :
    gives .startTimebase { quiet with tb := { quiet.tb with counter := 7, cycle := 3, tickDivider := 1, prescale := 4 } } (fun t =>
      t.tb.running && decide (t.tb.counter = 0 ∧ t.tb.cycle = 3 ∧ t.tb.tickDivider = 0)) = true ∧
    gives .stopTimebase cycle7 (fun t => !t.tb.running && decide (t.tb.counter = 899)) = true ∧
    answers .startTimebase cycle7 .badState [] = true := by decide +kernel

/-- R96, R177: a STAGED entry is member 0 of the conditions. -/
theorem test_bridge_commands :
    gives .enableBridge quiet (fun t => decide (t.op = .active)) = true ∧
    answers .disableBridge cycle7 .busy [1] = true ∧ gives .disableBridge live (fun t => decide (t.op = .bypass)) = true := by
  decide +kernel

/-- R97, R177: three entries discarded of group 0 and one of group 1, no write held, none outstanding. -/
theorem test_reset_datapath :
    gives .resetDatapath cycle7 (fun t => decide (t.mgmt.result = some ⟨.accepted, [4, 0, 0]⟩ ∧ t.op = .bypass ∧
      (t.group 0).counts.discarded = 3 ∧ (t.group 1).openList = [])) = true := by decide +kernel

/-! ## Capture (08, 8.7) and events (09, 9.9) -/

/-- Channel 1 of the worked sequence, and its qualifying write. -/
def channel1 : Channel :=
  { Channel.reset with
    state := .armed, prescale := 2, gate := true, rearmAtWrap := true, recordData := true
    matchMask := #v[0xFF, 0, 0, 0, 0, 0, 0, 0], matchValue := #v[1, 0, 0, 0, 0, 0, 0, 0] }

def write1 : Hit := ⟨1, .b, .write, 0x30000 / 8, 0xFF, bytes8 1, false⟩

def capturing (ch : Channel) : State := (atTick live 20 300).withChannel 1 ch

/-- (20, 300): the third qualifying hit produces a record with two skipped hits and gates the channel. -/
theorem test_third_hit_is_recorded :
    let t := (capturing { channel1 with prescaleCount := 2, skipCount := 2 }).takeHit write1
    t.cap.queue = [⟨.access 1 ⟨20, 300, true⟩ .b .write (0x30000 / 8) false (some (0xFF, bytes8 1)) 2, 0⟩] ∧
      (t.channel 1).state = .gated ∧ (t.channel 1).prescaleCount = 0 ∧ (t.channel 1).skipCount = 0 := by decide +kernel

/-- (20, 100), (20, 140) and (20, 220): counted and skipped, and twice not qualifying. -/
theorem test_hits_are_judged :
    ((capturing channel1).takeHit write1).channel 1 =
      { channel1 with prescaleCount := 1, skipCount := 1, hits := 1, qualifying := 1 } ∧
    ((capturing channel1).takeHit { write1 with data := bytes8 0 }).channel 1 = { channel1 with hits := 1 } ∧
    ((capturing channel1).takeHit { write1 with mask := 0xF0 }).channel 1 = { channel1 with hits := 1 } := by decide +kernel

/-- (21, 0) by REARM instead of the wrap: ARMED, the prescale count 0, the skip count kept. -/
theorem test_rearm :
    gives (.rearm 2) (capturing { channel1 with state := .gated, skipCount := 2 }) (fun t =>
      decide (t.mgmt.result = some ⟨.accepted, [2]⟩ ∧ (t.channel 1).state = .armed ∧ (t.channel 1).skipCount = 2)) = true ∧
    answers (.rearm 16) quiet .badArgument [0] = true := by decide +kernel

/-- Thirty-two records in the queue. -/
def fullQueue : State :=
  { live with cap := { live.cap with queue := List.replicate 32 ⟨.commit 0 1 ⟨3, 4, true⟩ 5 6 true, 7⟩, threshold := 32 }
              ev := ⟨BitVec.twoPow 19 18, 0, false⟩ }

/-- (21, 800): the oldest record is returned in the layout of 10.6, and the count falls below the threshold of 32. -/
theorem test_pop_capture :
    gives .popCapture fullQueue (fun t => decide (t.cap.queue.length = 31) && !t.ev.causes.getLsbD 18 &&
      decide ((t.mgmt.result.map fun r => r.data.take 10) = some [2, 0, 1, 7, 3, 0, 0, 0, 4, 0])) = true ∧
    answers .popCapture quiet .accepted (List.replicate 32 0) = true := by decide +kernel

/-- The states of 9.9 by its causes: SM1 is member 1, DF0 member 8, CR member 18. -/
def withCauses (causes enables : CauseSet) : State :=
  { live with ev := ⟨causes, enables, decide (causes &&& enables ≠ 0)⟩ }

/-- Step 5 of 9.9: CLEAR_CAUSES of DF0 and SM1. -/
theorem test_clear_causes :
    answers (.clearCauses 0x000102) (withCauses 0x00102 0x42100) .accepted [2, 1, 0, 0, 0, 0, 0] = true ∧
    answers (.clearCauses 0x080000) quiet .badArgument (List.replicate 7 0) = true := by decide +kernel

/-- Step 14 of 9.9: enabling a cause that is set asserts IRQ_N at once. -/
theorem test_set_enables :
    answers (.setEnables 0x002000) (withCauses 0x02000 0) .accepted [0, 0x20, 0, 0, 0x20, 0, 1] = true ∧
    answers (.setEnables 0x080000) quiet .badArgument (List.replicate 7 0) = true := by decide +kernel

/-! ## Frames and inspection -/

theorem test_identity : answers .readIdentity State.reset .accepted [0x41, 0x0A, 0x40, 0x72, 0x01] = true := by decide +kernel

theorem test_read_status :
    answers (.readStatus 9) (withCauses 0x00102 0x42100) .accepted [2, 1, 0, 0, 0x21, 4, 0, 1, 0, 1] = true ∧
    answers (.readStatus 10) State.reset .badArgument [] = true ∧
    answers (.readStatus 7) State.reset .accepted
      [0, 0, 0, 0, 0, 0, 0, 0xE8, 0x03, 0, 0, 0, 0, 0, 0, 0, 50, 0, 0, 0, 0, 0, 0, 0, 0] = true := by decide +kernel

/-- Entry 0 of step 1 of 01, 1.8, in the layout of R175. -/
theorem test_read_entry :
    gives (.stagedWritePlacement .a) step1 (fun t => answers (.readEntry 0) t .accepted
      [1, 0x00, 0x01, 0x04, 0x00, 0x00, 0x0F, 0x11, 0x22, 0x33, 0x44, 0, 0, 0, 0, 0, 0, 0, 0, 1, 1, 0]) = true ∧
    answers (.readEntry 64) quiet .badArgument (List.replicate 22 0) = true := by decide +kernel

theorem test_get_setting :
    answers (.getSetting 21 3) quiet .accepted [16] = true ∧ answers (.getSetting 7 0) quiet .badArgument [] = true ∧
    answers (.getSetting 1 1) quiet .badArgument [0] = true := by decide +kernel

theorem test_frames_that_are_none :
    gives (.partialFrame 9) quiet (fun t => decide (t.mgmt.frameErrors = 1)) = true ∧
    gives (.partialFrame 0) quiet (fun t => decide (t.mgmt.frameErrors = 0)) = true ∧
    answers (.unknownCommand 0x15) State.reset .unknownCommand [] = true := by decide +kernel

/-! ## States and operands that meet the hypotheses of the statements, each clause at a boundary of its range -/

/-! The agreement of the staged data, made decidable: what holds of an entry that is there. -/

theorem exists_entry (s : State) (i : PoolIndex) (P : Entry → Prop) [DecidablePred P] :
    (∃ e, s.entry i = some e ∧ P e) ↔ (s.entry i).any (fun e => decide (P e)) = true := by
  cases s.entry i <;> simp

theorem forall_entry (s : State) (i : PoolIndex) (P : Entry → Prop) [DecidablePred P] :
    (∀ e, s.entry i = some e → P e) ↔ (s.entry i).all (fun e => decide (P e)) = true := by
  cases s.entry i <;> simp

theorem test_meets_StepTakesTheFrontCommand :
    ({ quiet with pending := [.grant, .popCapture] } : State).pending = .grant :: [.popCapture] := rfl

/-- The timebase of a quiet bridge, changed. -/
def timed (f : Timebase → Timebase) : State := { quiet with tb := f quiet.tb }

theorem test_meets_EmptyQueueStepIsOneRefclkPeriod :
    quiet.pending = [] ∧ quiet.resetLow = false ∧ ({ quiet with resetLow := true } : State).resetLow = true ∧
    ¬ quiet.tb.usLength.toNat ≤ (timed fun t => { t with usDivider := 48 }).tb.usDivider.toNat + 1 ∧
    quiet.tb.usLength.toNat ≤ (timed fun t => { t with usDivider := 49 }).tb.usDivider.toNat + 1 ∧
    (timed fun t => { t with running := true }).tb.running = true ∧
    (quiet.driveSyncIn true).inputs.syncIn = ⟨true, .low⟩ := by decide +kernel

theorem test_meets_InitEndsAtTwentyMicroseconds :
    let last : State := { State.reset with tb := { Timebase.reset with usClock := 19, usDivider := 49 } }
    last.pending = [] ∧ last.resetLow = false ∧ last.op = .init ∧ last.tb.usLength = 50 ∧ last.tb.refFreq = 50 ∧
    last.tb.usDivider.toNat < 50 ∧ last.tb.usClock.toNat < 20 ∧ State.reset.tb.usDivider.toNat < 50 := by decide

theorem test_meets_EveryWellFormedCommandCompletes :
    Instr.grant.wellFormed = true ∧ (Instr.unknownCommand 1).wellFormed = false := by decide

theorem test_meets_ResetLineEdges :
    ({ State.reset with resetLow := true } : State).resetLow = true ∧ Instr.grant.wellFormed = true ∧
    Instr.grant ≠ .resetNAssert ∧ Instr.grant ≠ .resetNRelease ∧ State.reset.resetLow = false ∧
    ({ quiet with mgmt := { quiet.mgmt with listening := false } } : State).mgmt.listening = false ∧
    Instr.popCapture.isFrame = true := by decide

theorem test_meets_MicrosecondsCountAndEndInit :
    State.reset.resetLow = false ∧ State.reset.op = .init ∧
    20 ≤ ({ State.reset with tb := { Timebase.reset with usClock := 20 } } : State).tb.usClock.toNat ∧ quiet.op ≠ .init ∧
    ({ State.reset with tb := { Timebase.reset with usClock := 19 } } : State).tb.usClock.toNat < 20 := by decide

theorem test_meets_RefusedCommandChangesNothing :
    State.reset.takesFrames ∧ Instr.enableBridge.isFrame = true ∧
    (∃ t r, exec .enableBridge State.reset = .next t ∧ t.mgmt.result = some r ∧ r.code ≠ .accepted) ∧
    (∃ t r, exec (.enableWindow 0) State.reset = .next t ∧ t.mgmt.result = some r ∧ r.code = .badState) ∧
    ∃ t r, exec .disableBridge State.reset = .next t ∧ t.mgmt.result = some r ∧ r.code = .badState :=
  ⟨by decide, rfl, ⟨_, _, rfl, rfl, by decide⟩, ⟨_, _, rfl, rfl, rfl⟩, ⟨_, _, rfl, rfl, rfl⟩⟩

theorem test_meets_InitAnswersBadState :
    State.reset.op = .init ∧ State.reset.takesFrames ∧ (Instr.commitNow 16).isFrame = true ∧
    (Instr.commitNow 15).wellFormed = true ∧ (Instr.abortGroup 4).isFrame = true ∧ (Instr.rearm 0).isFrame = true ∧
    (Instr.unknownCommand 0x15).isFrame = true ∧ (Instr.unknownCommand 0x15).wellFormed = true ∧
    Instr.popCapture ≠ .readIdentity ∧ ∀ b, Instr.popCapture ≠ .readStatus b := by
  refine ⟨rfl, by decide, rfl, rfl, rfl, rfl, rfl, rfl, by decide, ?_⟩
  intro b h
  cases h

theorem test_meets_FramesWithoutACommand :
    (0x15#8).toNat ≥ 0x15 ∧ settingValueBytes 0 = none ∧ settingValueBytes 39 = none ∧
    ({ quiet with mgmt := { quiet.mgmt with frameErrors := 65535 } } : State).mgmt.frameErrors.toNat = 65535 ∧ quiet.mgmt.frameErrors.toNat ≠ 65535 := by
  decide

theorem test_meets_IdentityIsFixed : State.reset.takesFrames ∧ cycle7.takesFrames ∧ State.reset.op ≠ cycle7.op := by decide +kernel

theorem test_meets_InspectionShowsAndChangesNothing :
    duplicates.takesFrames ∧ duplicates.op ≠ .init ∧ duplicates.entry 63 = none ∧
    (duplicates.entry 9).map (·.gen) = some (.draining 1) ∧ (cycle7.entry 3).map (·.gen) = some .collecting := by
  decide +kernel

theorem test_meets_AcceptedSettingReadsBack :
    (∃ t, exec (.putSettingPeriod 0 900) quiet = .next t ∧ t.mgmt.result = some ⟨.accepted, []⟩) ∧
    encodeFrame (.putSettingPeriod 0 900) = some (0x02#8 :: 3 :: 0 :: [0x84, 0x03]) ∧ quiet.tb.running = false ∧
    (∃ t, exec (.putSettingGate 3 1) cycle7 = .next t ∧ t.mgmt.result = some ⟨.accepted, []⟩) ∧
    encodeFrame (.putSettingGate 3 1) = some (0x02#8 :: 35 :: 3 :: [1]) ∧ cycle7.tb.running = true :=
  ⟨⟨_, rfl, rfl⟩, by decide, rfl, ⟨_, rfl, rfl⟩, by decide, rfl⟩

theorem test_meets_ReportsShowTheState :
    quiet.takesFrames ∧ quiet.op ≠ .init ∧ cycle7.takesFrames ∧ cycle7.listsAgree := by
  refine ⟨by decide, by decide, by decide, ?_⟩
  simp only [State.listsAgree, exists_entry, forall_entry]
  decide +kernel

theorem test_meets_SettingsOutOfRangeAreRefused :
    State.reset.takesFrames ∧ State.reset.op = .init ∧ quiet.takesFrames ∧ quiet.op ≠ .init ∧
    encodeFrame (.putSettingReferenceFrequency 0 201) = some (0x02#8 :: 1 :: 0 :: [201]) ∧ settingValueBytes 1 ≠ none ∧
    (Instr.putSettingReferenceFrequency 0 201).wellFormed = true ∧ ¬ settingInRange 1 0 [201] ∧
    settingInRange 1 0 [200] ∧ settingInRange 1 0 [10] ∧ ¬ settingInRange 1 0 [9] ∧ ¬ settingInRange 1 1 [50] ∧
    settingInRange 24 3 [1] ∧ ¬ settingInRange 24 4 [1] ∧ ¬ settingInRange 22 0 [0x00, 0x10] := by
  unfold settingInRange
  decide

theorem test_meets_FramesDecodeToTheirCommand :
    (Instr.setEnables 0x07FFFF).wellFormed = true ∧ encodeFrame (.setEnables 0x07FFFF) = some [0x13, 0xFF, 0xFF, 0x07] ∧
    encodeFrame (.putSettingUnknownItem 7 0) = some [0x02, 7, 0] ∧ encodeFrame (.unknownCommand 0) = some [0] ∧
    quiet.resetLow = false ∧ quiet.mgmt.pins.csLow = false ∧ 39 < (([0x02, 3, 0, 0x84, 3] : List Byte).flatMap byteBits).length := by
  decide

theorem test_meets_GlobalSettingsAreWritten :
    quiet.takesFrames ∧ quiet.op ≠ .init ∧ 10 ≤ (10#8).toNat ∧ (200#8).toNat ≤ 200 ∧ (1#8).toNat ≤ 1 ∧
    GrantPolicy.drainFirst.code = 2 ∧ 1 ≤ (1#8).toNat ∧ (32#8).toNat ≤ 32 := by decide

theorem test_meets_TimebaseSettingsPendOrApply :
    cycle7.tb.running = true ∧ cycle7.takesFrames ∧ cycle7.op ≠ .init ∧ quiet.tb.running = false ∧
    2 ≤ (2#16).toNat ∧ ∃ t, exec (.putSettingSlotOffset 3 1000) quiet = .next t :=
  ⟨rfl, by decide, by decide, rfl, by decide, ⟨_, rfl⟩⟩

theorem test_meets_GroupSettingsAreWritten :
    (4095#16).toNat ≤ 4095 ∧ (64#8).toNat ≤ 64 ∧ (quiet.group 3).openList = [] ∧ (quiet.group 3).drainList = [] ∧
    (cycle7.group 0).openList ≠ [] ∧ (quiet.group 0).enabled = false ∧ (fourWindows.group 0).enabled = true ∧
    (fourWindows.window 2).names 0 = true ∧ (cycle7.group 1).enabled = true ∧
    ∀ w : WindowId, (cycle7.window w).names 1 = false := by decide +kernel

theorem test_meets_ChannelSettingsAreWritten :
    quiet.takesFrames ∧ quiet.op ≠ .init ∧ (1#8).toNat ≤ 1 ∧ (quiet.channel 3).state = .off ∧
    ((capturing { channel1 with state := .gated }).channel 1).state = .gated := by decide +kernel

theorem test_meets_WindowRangesAndPorts :
    (fourWindows.window 2).appliesTo .b = false ∧
    (fourWindows.window 2).base.toNat ≤ (fourWindows.window 2).limit.toNat ∧
    (stagedWindow 0xFFFFFF000 3 0 .pending).base.toNat ≤ (stagedWindow 0xFFFFFF000 3 0 .pending).limit.toNat := by
  decide +kernel

theorem test_meets_PutWindowReplacesTheFields :
    windowArgumentsOk 7 0xFFFFFF000 0xFFFFFF000 3 1 3 1 1 3 ∧ windowArgumentsOk 0 0 0 1 0 4 2 0 4 ∧
    ¬ windowArgumentsOk 7 0x1000000000 0x1000000000 3 0 0 0 0 0 ∧ ¬ windowArgumentsOk 8 0 0 1 0 0 0 0 0 ∧
    (7 : WindowId).val = (7#8).toNat ∧ (fourWindows.window 7).enabled = false ∧ (fourWindows.window 4).enabled = true := by
  unfold windowArgumentsOk
  decide +kernel

theorem test_meets_EnableWindowChecksOverlap :
    let clash := fun v : WindowId => decide (v ≠ 6) && (fourWindows.window v).enabled &&
      (fourWindows.window v).sharesPort (fourWindows.window 6) && (fourWindows.window v).overlaps (fourWindows.window 6)
    8 ≤ (8#8).toNat ∧ (fourWindows.window 2).enabled = true ∧ (fourWindows.window 6).enabled = false ∧ clash 2 = true ∧
    (∀ x : WindowId, x < 2 → clash x = false) ∧
    (∀ v : WindowId, (decide (v ≠ 6) && (quiet.window v).enabled) = false) ∧
    (quiet.withWindow 6 { stagedWindow 0 1 1 .pending with enabled := false }).window 6 =
      ⟨false, 0, 0, 1, .staged 1 .pending, none, 0⟩ ∧ (quiet.group 1).enabled = false ∧ (cycle7.group 1).enabled = true := by
  decide +kernel

theorem test_meets_DisableWindowWaitsForItsWork :
    (fourWindows.window 1).cls = .pass ∧ (fourWindows.window 0).enabled = false ∧
    (fourWindows.window 2).cls = .staged 0 .committed ∧ (fourWindows.window 2).enabled = true ∧
    (fourWindows.window 2).passage = 0 ∧ (step1.window 2).passage ≠ 0 ∧
    (∃ e, (put 63 (entryOf 0 (0x40FF8 / 8) .staged .collecting) fourWindows).entry 63 = some e ∧ e.group = 0 ∧
      (fourWindows.window 2).contains e.word = true) ∧
    ∀ i : PoolIndex, fourWindows.entry i = none :=
  ⟨rfl, rfl, rfl, rfl, rfl, by decide +kernel, ⟨_, rfl, rfl, by decide⟩, by decide +kernel⟩

theorem test_meets_ModesAndWindowsChangeOnlyAsTheManualSays_windows :
    (∃ t, exec .resetDatapath fourWindows = .next t) ∧ (fourWindows.window 2).enabled = true := ⟨⟨_, rfl⟩, rfl⟩

theorem test_meets_ClassificationFollowsTheWindow :
    fourWindows.op = .active ∧ fourWindows.windowsAgree ∧ (fourWindows.window 2).enabled = true ∧
    (fourWindows.window 2).contains (0x40FF8 / 8) = true ∧ (fourWindows.window 2).contains (0x40000 / 8) = true ∧
    (fourWindows.window 2).appliesTo .a = true ∧
    ∀ w : WindowId, ((fourWindows.window w).enabled && (fourWindows.window w).contains (0x41000 / 8) &&
      (fourWindows.window w).appliesTo .a) = false := by
  unfold State.windowsAgree
  decide +kernel

/-- A port's queue with so many issued requests before its last one. -/
def behind (n : Nat) (last : Progress) (s : State) : State :=
  queued .a (List.replicate n ⟨.read 5 1, .onM (toGroup 0)⟩ ++ [⟨.read 6 2, last⟩]) s

theorem test_meets_RequestsWaitOrGoBehindTheHead :
    4 ≤ ((behind 3 .behind live).port .a).queue.length ∧ ((behind 2 (.head (toGroup 0) .waiting) live).port .a).queue.length < 4 ∧
    ((behind 2 (.head (toGroup 0) .waiting) live).head .a).isSome = true ∧ (live.port .a).waiting = [] ∧
    (BusRequest.read 5 1).wellFormed = true := by decide +kernel

theorem test_meets_RequestBecomesTheHead :
    (∀ x ∈ ((behind 2 (.onM (toGroup 0)) fourWindows).port .a).queue, x.progress.isUnsettled = false) ∧
    ((behind 2 (.onM (toGroup 0)) fourWindows).port .a).queue.length < 4 ∧ (fourWindows.port .a).waiting = [] ∧
    (fourWindows.classify .a (0x50000 / 8)).route = .pass ∧ (fourWindows.classify .a (0x50000 / 8)).channel = none ∧
    (fourWindows.classify .a (0x40000 / 8)).route = .staged 0 .committed ∧
    duplicates.fullyCovered 0 .committed (0x50000 / 8) = true ∧ fourWindows.fullyCovered 0 .committed 5 = false ∧
    (BusRequest.write 5 0x80 (bytes8 0) 1).wellFormed = true := by decide +kernel

theorem test_meets_ResponseIsTakenInOrder :
    let s := queued .a [⟨.read 5 1, .answered ⟨.error, some (bytes8 0)⟩⟩, ⟨.read 6 2, .onM (toGroup 0)⟩] live
    (s.port .a).queue = ⟨.read 5 1, .answered ⟨.error, some (bytes8 0)⟩⟩ :: [⟨.read 6 2, .onM (toGroup 0)⟩] ∧
    (s.port .a).waiting = [] ∧
    ((s.withPort .a { s.port .a with waiting := [.read 7 3] }).port .a).waiting = .read 7 3 :: [] ∧
    ∀ (r : BusRequest) (a : Answer) (rest : List QueuedRequest),
      ((behind 0 (.onM (toGroup 0)) live).port .a).queue ≠ ⟨r, .answered a⟩ :: rest := by
  refine ⟨rfl, rfl, rfl, ?_⟩
  intro r a rest h
  cases h

theorem test_meets_AnswersStayInIssueOrder :
    (∃ t, exec .grant (behind 0 (.head (toGroup 0) .waiting) live) = .next t) ∧ Instr.grant ≠ .responseTaken .a ∧
    ∃ t, exec (.responseTaken .a) (behind 0 (.answered ⟨.okay, none⟩) live) = .next t := ⟨⟨_, rfl⟩, by decide, ⟨_, rfl⟩⟩

/-- Step 2 of 01, 1.8, with another word's entry before the one that is met. -/
def merging : State :=
  put 5 (entryOf 0 1 .staged .collecting) (step2.withGroup 0 { step2.group 0 with openList := [5, 0] })

theorem test_meets_PlacementMergesOrAllocates_by_merge :
    merging.resetLow = false ∧ queueOrdered (merging.port .a).queue = true ∧
    merging.head .a = some ⟨.write (0x40100 / 8) 0x3C #v[0, 0, 0xAA, 0xBB, 0xCC, 0xDD, 0, 0] 3, .head (toGroup 0) (.passage false)⟩ ∧
    (toGroup 0).route = .staged 0 .committed ∧ (merging.group 0).mode = .merge ∧ (merging.group 0).openList = [5] ++ 0 :: [] ∧
    (∀ j ∈ [(5 : PoolIndex)], ∀ x, merging.entry j = some x → x.word ≠ 0x40100 / 8) ∧
    (merging.entry 0).map (·.word) = some (0x40100 / 8) := by
  refine ⟨rfl, by decide +kernel, by decide +kernel, rfl, by decide +kernel, by decide +kernel, ?_, by decide +kernel⟩
  intro j hj
  rw [List.mem_singleton] at hj
  subst hj
  exact entry_all (by decide +kernel)

/-- An open list one below its entry limit, and the first free entry at index 63. -/
def lastFree (mode : GroupMode) : State :=
  let s := placing 9 0xFF (bytes8 1) live
  { s.withGroup 0 { Group.reset with mode := mode, entryLimit := 3, openList := [0, 1] } with
    pool := Vector.ofFn fun i : PoolIndex => if i = 63 then none else some (entryOf 0 1 .staged .collecting) }

theorem test_meets_PlacementMergesOrAllocates_by_allocation :
    (lastFree .merge).resetLow = false ∧ queueOrdered ((lastFree .merge).port .a).queue = true ∧
    (lastFree .merge).head .a = some ⟨.write 9 0xFF (bytes8 1) 3, .head (toGroup 0) (.passage false)⟩ ∧
    ((lastFree .sequence).group 0).mode = .sequence ∧
    (∀ j ∈ ((lastFree .merge).group 0).openList, ∀ x, (lastFree .merge).entry j = some x → x.word ≠ 9) ∧
    ((lastFree .merge).group 0).openList.length < ((lastFree .merge).group 0).entryLimit.toNat ∧
    (lastFree .merge).entry 63 = none ∧ ∀ j : PoolIndex, j < 63 → ((lastFree .merge).entry j).isSome = true := by
  refine ⟨rfl, by decide +kernel, by decide +kernel, by decide +kernel, ?_, by decide +kernel, by decide +kernel,
    by decide +kernel⟩
  intro j _
  refine entry_all ?_
  revert j
  decide +kernel

theorem test_meets_UnplacedWritesAreAnsweredOrHeld :
    (atLimit .hold).resetLow = false ∧ queueOrdered ((atLimit .hold).port .a).queue = true ∧
    (atLimit .hold).head .a = some ⟨.write (0x40118 / 8) 0xFF (bytes8 1) 3, .head (toGroup 0) (.passage false)⟩ ∧
    (∀ j ∈ ((atLimit .hold).group 0).openList, ∀ x, (atLimit .hold).entry j = some x → x.word ≠ 0x40118 / 8) ∧
    ((atLimit .hold).group 0).entryLimit.toNat ≤ ((atLimit .hold).group 0).openList.length ∧
    ((atLimit .hold).group 0).policy = .hold ∧ ((atLimit .reject).group 0).policy = .reject ∧
    (∀ j : PoolIndex, ((put 63 (entryOf 0 1 .staged .collecting) (lastFree .merge)).entry j).isSome = true) ∧
    (queued .a [⟨.write 5 1 (bytes8 0) 0, .head (toGroup 0) (.passage true)⟩] quiet).head .a =
      some ⟨.write 5 1 (bytes8 0) 0, .head (toGroup 0) (.passage true)⟩ := by
  refine ⟨rfl, by decide +kernel, by decide +kernel, ?_, by decide +kernel, by decide +kernel, by decide +kernel,
    by decide +kernel, by decide +kernel⟩
  intro j _
  refine entry_all ?_
  revert j
  decide +kernel

theorem test_meets_HoldsAndBudgetsExpire_hold :
    (held 1053).resetLow = false ∧ (held 1053).holds = [] ++ ⟨.a, 0, 1003, 50⟩ :: [] ∧
    queueOrdered ((held 1053).port .a).queue = true ∧
    (held 1053).head .a = some ⟨.write (0x40110 / 8) 0xFF (bytes8 1) 4, .head (toGroup 0) .held⟩ ∧
    (50#12).toNat ≤ ((held 1053).tb.usClock - 1003).toNat ∧ ((held 1052).tb.usClock - 1003).toNat < (50#12).toNat := by
  decide +kernel

/-- The held write of 06, 6.13 with an open list of its group and a policy: the word of the write at entry 0, or another. -/
def retrying (word : WordIndex) (limit : Byte) (policy : FullPolicy) : State :=
  put 0 (entryOf 0 word .staged .collecting) ((held 1003).withGroup 0
    { Group.reset with enabled := true, policy := policy, entryLimit := limit, openList := [0] })

/-- A write of each port held for group 0, A's first, and every entry but 63 live on the group's open list. -/
def bothHeld : State :=
  let s := queued .b [⟨.write 9 0xFF (bytes8 2) 5, .head (toGroup 0) .held⟩] ((retrying 1 64 .hold).withGroup 0
    { (retrying 1 64 .hold).group 0 with openList := (List.finRange 64).filter (· ≠ 63) })
  { s with
    holds := [⟨.a, 0, 1003, 50⟩, ⟨.b, 0, 1004, 50⟩]
    pool := Vector.ofFn fun i : PoolIndex => if i = 63 then none else some (entryOf 0 1 .staged .collecting) }

theorem test_meets_RetryPointsServeHeldWrites :
    (retrying 1 1 .hold).holds = [⟨.a, 0, 1003, 50⟩] ∧ queueOrdered ((retrying 1 1 .hold).port .a).queue = true ∧
    (retrying 1 1 .hold).head .a = some ⟨.write (0x40110 / 8) 0xFF (bytes8 1) 4, .head (toGroup 0) .held⟩ ∧
    ((retrying (0x40110 / 8) 1 .hold).group 0).mode = .merge ∧
    ((retrying (0x40110 / 8) 1 .hold).group 0).openList = [] ++ 0 :: [] ∧
    ((retrying (0x40110 / 8) 1 .hold).entry 0).map (·.word) = some (0x40110 / 8) ∧
    (retrying 1 2 .hold).needsEntry 0 (0x40110 / 8) ∧ (retrying 1 2 .hold).entry 1 = none ∧
    (∀ j : PoolIndex, j < 1 → ((retrying 1 2 .hold).entry j).isSome = true) ∧
    (retrying 1 1 .hold).hasNoRoom 0 ∧ ((retrying 1 1 .reject).group 0).policy = .reject := by
  refine ⟨rfl, by decide +kernel, by decide +kernel, rfl, rfl, rfl, .inr ?_, rfl, by decide +kernel, .inl (by decide), rfl⟩
  intro j _
  refine entry_all ?_
  revert j
  decide +kernel

theorem test_meets_RetryPointsServeHeldWrites_both :
    bothHeld.holds = [⟨.a, 0, 1003, 50⟩, ⟨.b, 0, 1004, 50⟩] ∧ bothHeld.listsAgree ∧
    bothHeld.head .a = some ⟨.write (0x40110 / 8) 0xFF (bytes8 1) 4, .head (toGroup 0) .held⟩ ∧
    bothHeld.head .b = some ⟨.write 9 0xFF (bytes8 2) 5, .head (toGroup 0) .held⟩ ∧
    bothHeld.needsEntry 0 (0x40110 / 8) ∧ bothHeld.needsEntry 0 9 ∧ bothHeld.entry 63 = none ∧
    (bothHeld.group 0).openList.length < (bothHeld.group 0).entryLimit.toNat ∧
    ∀ j : PoolIndex, j ≠ 63 → (bothHeld.entry j).isSome = true := by
  refine ⟨rfl, ?_, by decide +kernel, by decide +kernel, .inr ?_, .inr ?_, by decide +kernel, by decide +kernel,
    by decide +kernel⟩
  · simp only [State.listsAgree, exists_entry, forall_entry]
    decide +kernel
  all_goals
    intro j _
    refine entry_all ?_
    revert j
    decide +kernel

theorem test_meets_RetryPointsServeHeldWrites_slots :
    cycle7.resetLow = false ∧ Instr.counterStep ∈ [Instr.counterStep, .naturalWrap, .syncInEdge, .commitInEdge, .startTimebase] ∧
    (List.finRange 4).filter (cycle7.rowReaches .counterStep) = [0] ∧
    (List.finRange 4).filter (cycle7.rowReaches .commitInEdge) = [1] ∧ ((retrying 1 1 .hold).group 0).drainList = [] ∧
    (retrying 1 1 .hold).holds ≠ [] ∧ (closing.group 0).drainList ≠ [] := by decide +kernel

theorem test_meets_RetryPointsServeHeldWrites_points :
    (∃ u, exec (.commitNow (BitVec.twoPow 8 0)) { retrying 1 1 .hold with holds := [] } = .next u) ∧
    (∃ u, exec (.abortGroup 0) { retrying 1 1 .hold with holds := [] } = .next u) ∧
    (∃ u, exec (.memoryResponse .okay (bytes8 0) 0) { closing with holds := [] } = .next u) ∧
    (retrying 1 1 .hold).takesFrames ∧ (retrying 1 1 .hold).op = .active ∧
    ((retrying 1 1 .hold).group 0).drainList = [] ∧ ((retrying 1 1 .hold).group 0).openList ≠ [] ∧
    (closing.group 0).drainList ≠ [] ∧ (closing.group 0).enabled = true :=
  ⟨⟨_, rfl⟩, ⟨_, rfl⟩, ⟨_, rfl⟩, by decide, rfl, rfl, by decide, by decide, rfl⟩

/-- A held write takes the entry that an acknowledgement frees, and one that a commit of its group makes room for (R16). -/
theorem test_retry_points :
    gives (.commitNow 1) (retrying 1 1 .hold) (fun t => decide (t.holds = [] ∧ (t.group 0).openList = [1] ∧
      (t.port .a).queue.map (·.progress) = [.answered ⟨.okay, none⟩])) = true ∧
    gives (.abortGroup 0) (retrying 1 1 .hold) (fun t => decide (t.holds = [] ∧ (t.group 0).openList = [0])) = true := by
  decide +kernel

theorem test_meets_SlotsAndEdgesReachTheirGroups :
    cycle7.resetLow = false ∧ cycle7.tb.running = true ∧ cycle7.tb.counter.toNat + 1 < cycle7.tb.period.toNat ∧
    (atTick cycle7 7 998).tb.counter.toNat + 1 < cycle7.tb.period.toNat ∧ cycle7.slotReaches cycle7.group 900 0 = true ∧
    cycle7.inputs.commitIn.seen ≠ .highFromRelease ∧ (highAtRelease cycle7).inputs.commitIn.seen = .highFromRelease := by
  decide +kernel

theorem test_meets_WrapsDoTheirFourThings :
    (atTick cycle7 7 999).resetLow = false ∧ (atTick cycle7 7 999).tb.running = true ∧
    (atTick cycle7 7 999).tb.period.toNat ≤ (atTick cycle7 7 999).tb.counter.toNat + 1 ∧ cycle13.tb.running = true ∧
    cycle13.tb.syncEnable = true ∧ cycle13.tb.counter.toNat + 1 < cycle13.tb.period.toNat ∧ cycle7.tb.syncEnable = false ∧
    cycle13.inputs.syncIn.seen ≠ .highFromRelease ∧ (highAtRelease cycle13).inputs.syncIn.seen = .highFromRelease := by
  decide +kernel

theorem test_meets_TimebaseStartsAndStops :
    quiet.takesFrames ∧ quiet.op ≠ .init ∧ quiet.tb.running = false ∧ cycle7.tb.running = true ∧ cycle7.op ≠ .init := by
  decide +kernel

theorem test_meets_CommitNowTakesOrReportsBusy :
    cycle7.takesFrames ∧ cycle7.op = .active ∧ (15#8).toNat < 16 ∧ (cycle7.group 0).drainList = [] ∧
    (15#8).getLsbD 1 = true ∧ (cycle7.group 1).enabled = true ∧ (duplicates.group 0).enabled = true ∧
    (duplicates.group 0).drainList ≠ [] ∧
    16 ≤ (16#8).toNat ∧ quiet.takesFrames ∧ quiet.op ≠ .active ∧ State.reset.op ≠ .active := by decide +kernel

theorem test_meets_CommitEventEffects :
    (cycle7.group 0).enabled = true ∧ cycle7.holds = [] ∧ (cycle7.group 0).drainList = [] ∧ (cycle7.group 0).openList ≠ [] ∧
    (twoGroups.group 0).enabled = true ∧ twoGroups.op = .active ∧ (twoGroups.group 0).openList = [] ∧
    twoGroups.cap.queue.length < 32 := by decide +kernel

theorem test_meets_AbortDiscardsTheOpenGeneration :
    4 ≤ (4#8).toNat ∧ (cycle7.group 3).enabled = false ∧ (cycle7.group 0).enabled = true ∧ cycle7.op ≠ .init ∧
    cycle7.holds = [] ∧ cycle7.takesFrames := by decide +kernel

theorem test_meets_CommitShowsThePendingWord :
    cycle7.takesFrames ∧ cycle7.op = .active ∧ (cycle7.group 0).enabled = true ∧ cycle7.listsAgree ∧
    (cycle7.group 0).drainList = [] ∧ ∃ t, exec (.commitNow (BitVec.twoPow 8 0)) cycle7 = .next t := by
  refine ⟨by decide, rfl, rfl, ?_, rfl, ⟨_, rfl⟩⟩
  simp only [State.listsAgree, exists_entry, forall_entry]
  decide +kernel

theorem test_meets_GrantFollowsThePolicy :
    (draining .drain).resetLow = false ∧ (draining .drain).arb.outstanding.length < 4 ∧ (draining .drain).waits .drain = true ∧
    4 ≤ (List.replicate 4 (⟨.drain 0 1, .read 1 1⟩ : Outstanding)).length ∧
    (live.waits (.port .a) || live.waits (.port .b) || live.waits .drain) = false := by decide +kernel

theorem test_meets_GrantSendsAHeadOrADrainWrite_to_a_port :
    (draining (.port .b)).grantChoice = some (.port .b) ∧ queueOrdered ((draining (.port .b)).port .b).queue = true ∧
    (draining (.port .b)).head .b = some ⟨.read 9 2, .head ⟨.pass, none, none⟩ .waiting⟩ ∧
    (draining (.port .b)).arb.outstanding.length < 4 := by decide +kernel

theorem test_meets_GrantSendsAHeadOrADrainWrite_to_the_drain_engine :
    (draining .drain).grantChoice = some .drain ∧
    (draining .drain).drain.queue = ⟨0, 30, ⟨1, 2, true⟩, 5000, 20, .issuing, some 4, 0, 0, 0, false⟩ :: [] ∧
    (draining .drain).entry 4 = some (entryOf 0 (0x40100 / 8) .queued (.draining 30)) := by decide +kernel

/-- A read of port A on port M, behind an answered request. -/
def onMemory : State :=
  queued .a [⟨.read 4 0, .answered ⟨.okay, none⟩⟩, ⟨.read 5 1, .onM (toGroup 0)⟩]
    { live with arb := { Arbiter.reset with outstanding := [⟨.port .a 1 .read, .read 5 0⟩] } }

theorem test_meets_MemoryAnswersThePort :
    onMemory.resetLow = false ∧ onMemory.arb.outstanding = ⟨.port .a 1 .read, .read 5 0⟩ :: [] ∧
    (onMemory.port .a).queue = [⟨.read 4 0, .answered ⟨.okay, none⟩⟩] ++ ⟨.read 5 1, .onM (toGroup 0)⟩ :: [] ∧
    (∀ x ∈ [(⟨.read 4 0, .answered ⟨.okay, none⟩⟩ : QueuedRequest)], x.progress.isOnM = false) ∧
    (toGroup 0).channel = none := by decide +kernel

theorem test_meets_MemoryAcknowledgesADrainWrite :
    live.arb.outstanding = [] ∧ closing.resetLow = false ∧
    closing.arb.outstanding = ⟨.drain 0 9, .write (0x40110 / 8) 0xFF (bytes8 7) 0⟩ :: [] ∧
    (9 : PoolIndex) ∈ (closing.group 0).drainList ∧
    closing.entry 9 = some (entryOf 0 (0x40110 / 8) .writing (.draining 30)) ∧ closing.holds = [] := by decide +kernel

/-- The last write left over from RESET_DATAPATH, with a generation committed after it. -/
def leftover : State := { closing with
  drain := ⟨[⟨1, 5, ⟨1, 2, true⟩, 5002, 0, .waiting, some 3, 0, 0, 0, false⟩], [(0, 9)], true⟩ }

theorem test_meets_AcknowledgementsAreCountedAndRetire :
    closing.drain.leftovers = [] ∧ (closing.drain.queue.map (·.phase)) = [.closing] ∧
    (closing.drain.queue.map (·.outstanding)) = [1] ∧ ((draining .drain).drain.queue.map (·.phase)) = [.issuing] ∧
    (closing.group 0).logCommits = true ∧ closing.cap.queue.length < 32 ∧ leftover.drain.leftovers = (0, 9) :: [] ∧
    leftover.arb.outstanding = ⟨.drain 0 9, .write (0x40110 / 8) 0xFF (bytes8 7) 0⟩ :: [] ∧ leftover.holds = [] := by
  decide +kernel

theorem test_meets_HoldsAndBudgetsExpire_budget :
    (draining .drain).resetLow = false ∧
    (draining .drain).drain.queue = [] ++ ⟨0, 30, ⟨1, 2, true⟩, 5000, 20, .issuing, some 4, 0, 0, 0, false⟩ :: [] ∧
    (20#12).toNat ≤ (5020 - 5000 : BitVec 32).toNat ∧ (5019 - 5000 : BitVec 32).toNat < (20#12).toNat := by decide +kernel

theorem test_meets_BridgeIsEnabledAndDisabled :
    State.reset.op = .init ∧ quiet.op = .bypass ∧ live.op = .active ∧ live.holds = [] ∧ (held 1003).holds ≠ [] ∧
    ((List.finRange 64).any fun i => cycle7.entryIs .staged i || cycle7.entryIs .queued i) = true ∧
    ((List.finRange 64).any fun i => live.entryIs .staged i || live.entryIs .queued i) = false ∧
    ((List.finRange 8).any fun w => decide ((live.window w).passage ≠ 0)) = false ∧
    ((List.finRange 8).any fun w => decide ((step1.window w).passage ≠ 0)) = true := by decide +kernel

theorem test_meets_ResetDatapathDiscards :
    (held 1003).takesFrames ∧ (held 1003).op ≠ .init ∧ (held 1003).cap.threshold ≠ 0 ∧
    queueOrdered ((held 1003).port .a).queue = true ∧ (held 1003).holds.map (·.port) = [.a] ∧
    (held 1003).head .a = some ⟨.write (0x40110 / 8) 0xFF (bytes8 1) 4, .head (toGroup 0) .held⟩ ∧
    closing.entryIs .writing 9 = true ∧ closing.outstandingDrains = [(0, 9)] ∧
    (bothHeld.holds.map (·.port)).Nodup ∧ (∀ p ∈ bothHeld.holds.map (·.port), bothHeld.headHeld p = true) ∧
    Port.b ∉ (held 1003).holds.map (·.port) := by decide +kernel

theorem test_meets_PrescaleThinsTheHits :
    let s := capturing { channel1 with gate := false, prescale := 255 }
    (s.channel 1).state = .armed ∧ (s.channel 1).gate = false ∧ (s.channel 1).prescaleCount = 0 ∧
    (s.channel 1).skipCount = 0 ∧ (s.channel 1).qualifies write1 = true ∧ s.cap.queue.length < 32 ∧
    ((capturing { channel1 with state := .off }).channel 1).state = .off ∧
    ((capturing { channel1 with state := .gated }).channel 1).qualifies write1 = true ∧
    channel1.qualifies { write1 with direction := .read } = false ∧
    ((capturing { channel1 with prescaleCount := 2 }).channel 1).prescale.toNat ≤ (2#8).toNat := by decide +kernel

/-- Window 3 STAGED for group 0 with capture channel 1, over the staged word of 01, 1.8. -/
def watched : State :=
  (capturing channel1).withWindow 3 { stagedWindow 0x40000 3 0 .pending with channel := some 1 }

theorem test_meets_HitsReachTheirChannel :
    watched.resetLow = false ∧ (BusRequest.write (0x40100 / 8) 0xFF (bytes8 1) 2).wellFormed = true ∧
    (watched.port .a).waiting = [] ∧ (∀ x ∈ (watched.port .a).queue, x.progress.isUnsettled = false) ∧
    (watched.classify .a (0x40100 / 8)).channel = some 1 ∧ (watched.classify .a (0x40100 / 8)).route = .staged 0 .pending ∧
    watched.fullyCovered 0 .pending (0x40100 / 8) = false ∧
    ((put 0 (entryOf 0 (0x40100 / 8) .staged .collecting)
      (watched.withGroup 0 { Group.reset with openList := [0] })).fullyCovered 0 .pending (0x40100 / 8)) = true ∧
    (queued .a [⟨.read 5 1, .head ⟨.pass, none, none⟩ .waiting⟩, ⟨.write (0x40100 / 8) 0xFF (bytes8 1) 2, .behind⟩]
      watched).grantChoice = some (.port .a) ∧
    onMemory.arb.outstanding = ⟨.port .a 1 .read, .read 5 0⟩ :: [] ∧
    (⟨.staged 0 .pending, some 3, some 1⟩ : Classification).channel = some 1 := by decide +kernel

/-- 06, R113: the hit of a captured write is counted at its acceptance. -/
theorem test_accepted_write_gives_its_hit :
    gives (.requestAccept .a (.write (0x40100 / 8) 0xFF (bytes8 1) 2)) watched (fun t =>
      decide ((t.channel 1).hits = 1 ∧ (t.channel 1).skipCount = 1)) = true := by decide +kernel

theorem test_meets_CaptureQueueStoresDropsAndPops :
    32 ≤ fullQueue.cap.queue.length ∧ ({ fullQueue.cap with queue := fullQueue.cap.queue.tail } : CaptureUnit).queue.length < 32 ∧
    State.reset.op = .init ∧ quiet.op ≠ .init ∧ quiet.cap.queue = [] ∧
    fullQueue.cap.queue = ⟨.commit 0 1 ⟨3, 4, true⟩ 5 6 true, 7⟩ :: fullQueue.cap.queue.tail := by decide +kernel

theorem test_meets_RearmOpensGatedChannels :
    quiet.takesFrames ∧ 16 ≤ (16#8).toNat ∧ (15#8 ≠ 0 ∧ (15#8).toNat < 16) ∧ State.reset.op = .init ∧ quiet.op ≠ .init ∧
    ((capturing { channel1 with state := .gated }).channel 1).state = .gated := by decide +kernel

theorem test_meets_CauseAndEnableCommands :
    quiet.takesFrames ∧ State.reset.op = .init ∧ quiet.op ≠ .init ∧ 2 ^ 19 ≤ (0x080000#24).toNat ∧
    (0x07FFFF#24).toNat < 2 ^ 19 := by decide

theorem test_meets_StickyCausesStay :
    (∃ t, exec .resetDatapath (withCauses 0x3FFFF 1) = .next t) ∧
    (∀ i : Fin 18, (withCauses 0x3FFFF 1).ev.causes.getLsbD i.val = true) ∧ ∀ b, Instr.resetDatapath ≠ .clearCauses b :=
  ⟨⟨_, rfl⟩, by decide, fun b h => by cases h⟩

theorem test_meets_ModesAndWindowsChangeOnlyAsTheManualSays_modes :
    (∃ t, exec .enableBridge quiet = .next t ∧ t.op ≠ quiet.op) ∧
    (∃ t, exec .initComplete { State.reset with tb := { Timebase.reset with usClock := 20 } } = .next t ∧ t.op ≠ .init) ∧
    (∃ t, exec .counterStep cycle7 = .next t) ∧ cycle7.tb.running = true :=
  ⟨⟨_, rfl, by decide⟩, ⟨_, rfl, by decide⟩, ⟨_, rfl⟩, rfl⟩

/-- The state of 03, 3.10 with its arbiter's drain writes, for the invariants: entry 4 is WRITING, entries 7 and 9 wait. -/
def drained : State :=
  let s := draining .drain
  { put 4 (entryOf 0 (0x40100 / 8) .writing (.draining 30)) s with
    arb := { s.arb with outstanding := [⟨.drain 0 4, .write (0x40100 / 8) 0xFF (bytes8 7) 0⟩], grants := 1 }
    drain := ⟨[⟨0, 30, ⟨1, 2, true⟩, 5000, 20, .issuing, some 7, 1, 0, 0, false⟩], [], true⟩
    pending := [.grant] }

theorem test_meets_StagedDataInvariant : drained.stagedDataAgree ∧ ∃ t, step drained = .next t := by
  refine ⟨⟨?_, ?_, ?_, ?_, ⟨?_, ?_, ?_⟩, ?_⟩, ⟨_, rfl⟩⟩
  · simp only [State.listsAgree, exists_entry, forall_entry]
    decide +kernel
  · unfold State.writesAgree
    decide +kernel
  · decide +kernel
  · unfold State.recordAgrees
    decide +kernel
  · decide +kernel
  · decide +kernel
  · intro _
    exact ⟨rfl, by decide +kernel, by decide +kernel⟩
  · decide +kernel

theorem test_meets_CommittedDataIsFixed :
    drained.stagedDataAgree ∧ (∃ t, step drained = .next t) ∧
    drained.entry 7 = some (entryOf 0 (0x40108 / 8) .queued (.draining 30)) ∧
    (entryOf 0 (0x40108 / 8) .queued (.draining 30)).state ≠ .staged :=
  ⟨test_meets_StagedDataInvariant.1, ⟨_, rfl⟩, by decide +kernel, by decide⟩

theorem test_meets_QueuesStayInOrder : drained.portsOrdered ∧ drained.headsAgree ∧ ∃ t, step drained = .next t := by
  refine ⟨?_, ?_, ⟨_, rfl⟩⟩
  · unfold State.portsOrdered PortState.ordered
    decide +kernel
  · simp only [State.headsAgree, show ∀ P : Port → Prop, (∀ p, P p) ↔ P .a ∧ P .b from
      fun P => ⟨fun h => ⟨h .a, h .b⟩, fun h p => by cases p; exact h.1; exact h.2⟩]
    decide +kernel

theorem test_meets_EventCaptureAndTimebaseInvariant :
    drained.irqAgrees ∧ drained.captureAgrees ∧ drained.channelsAgree ∧ drained.timebaseAgrees ∧
    ∃ t, step drained = .next t := by
  refine ⟨?_, ?_, ?_, ?_, ⟨_, rfl⟩⟩
  · unfold State.irqAgrees; decide +kernel
  · unfold State.captureAgrees; decide +kernel
  · unfold State.channelsAgree; decide +kernel
  · exact ⟨by decide +kernel, fun v h => (by cases h), by decide +kernel, by decide +kernel, by decide +kernel⟩

/-- The counts of a group with three entries allocated and none drained, and of a port with its head waiting. -/
def counted : State :=
  let s := drained.withGroup 0 { drained.group 0 with counts := { GroupCounts.reset with allocated := 3 } }
  s.withPort .b { s.port .b with counts := { (s.port .b).counts with requests := 1 } }

theorem test_meets_CountsLinesAndWindowsInvariant :
    ((counted.port .a).balanced ∧ (counted.port .b).balanced) ∧ (∀ g : GroupId, (counted.group g).balanced) ∧
    counted.openWithinLimit ∧ counted.drainLinesAgree ∧ counted.windowsAgree ∧ ∃ t, step counted = .next t := by
  refine ⟨⟨?_, ?_⟩, ?_, ?_, ?_, ?_, ⟨_, rfl⟩⟩
  · unfold PortState.balanced; decide +kernel
  · unfold PortState.balanced; decide +kernel
  · unfold Group.balanced; decide +kernel
  · unfold State.openWithinLimit; decide +kernel
  · unfold State.drainLinesAgree; decide +kernel
  · unfold State.windowsAgree; decide +kernel

end Sys2Proof.Tests
end

/-! PROOFS. Window ranges, port sets and classification (R85), and DISABLE_WINDOW (R89). -/

namespace Sys2Proof.Machine

/-! ## Ranges -/

/-- A word's byte address is a multiple of 8 (R100). -/
theorem toNat_wordAddress (w : WordIndex) : w.address.toNat = 8 * w.toNat := by
  unfold WordIndex.address
  rw [BitVec.toNat_append, ← Nat.shiftLeft_add_eq_or_of_lt (by simp), Nat.shiftLeft_eq]
  simp [Nat.mul_comm]

theorem Window.contains_iff (w : Window) (word : WordIndex) : w.contains word = true ↔
    w.base.toNat ≤ 8 * word.toNat ∧ 8 * word.toNat ≤ w.limit.toNat + 4095 := by
  rw [Window.contains, decide_eq_true_eq, toNat_wordAddress, Config.pageBytes]
  omega

/-- Of two ranges that overlap, the higher base lies in both. -/
theorem Window.overlaps_iff {v w : Window} (hv : v.base.toNat ≤ v.limit.toNat) (hw : w.base.toNat ≤ w.limit.toNat) :
    v.overlaps w = true ↔ ∃ a : Address, v.base.toNat ≤ a.toNat ∧ a.toNat ≤ v.limit.toNat + 4095 ∧
      w.base.toNat ≤ a.toNat ∧ a.toNat ≤ w.limit.toNat + 4095 := by
  rw [Window.overlaps, decide_eq_true_eq, Config.pageBytes]
  constructor
  · rintro ⟨hvw, hwv⟩
    rcases Nat.le_total v.base.toNat w.base.toNat with h | h
    · exact ⟨w.base, by omega⟩
    · exact ⟨v.base, by omega⟩
  · rintro ⟨a, ha⟩
    omega

/-! ## Port sets -/

/-- A set of ports with a member has A or B as a member (R169). -/
theorem portSet_ne_zero_iff : ∀ x : PortSet, x ≠ 0 ↔ x.getLsbD 0 = true ∨ x.getLsbD 1 = true := by decide

theorem Window.appliesTo_eq (w : Window) (p : Port) :
    w.appliesTo p = w.ports.getLsbD (match p with | .a => 0 | .b => 1) := by
  rw [Bool.eq_iff_iff, Window.appliesTo, decide_eq_true_eq, portSet_ne_zero_iff]
  cases p <;> simp [Port.asSet]

theorem Window.sharesPort_iff (v w : Window) :
    v.sharesPort w = true ↔ ∃ p : Port, v.appliesTo p = true ∧ w.appliesTo p = true := by
  simp only [Window.sharesPort, decide_eq_true_eq, portSet_ne_zero_iff, BitVec.getLsbD_and, Bool.and_eq_true,
    Window.appliesTo_eq]
  constructor
  · rintro (h | h)
    · exact ⟨.a, h⟩
    · exact ⟨.b, h⟩
  · rintro ⟨p, h⟩
    cases p with
    | a => exact .inl h
    | b => exact .inr h

/-! ## A window switched off -/

/-- The state with a window disabled and nothing else changed. -/
abbrev State.switchOff (w : WindowId) (s : State) : State := s.withWindow w { s.window w with enabled := false }

/-- Every window keeps its fields when one is disabled, and every other one stays enabled. -/
theorem State.window_switchOff (s : State) (w v : WindowId) :
    (s.switchOff w).window v = { s.window v with enabled := decide (v ≠ w) && (s.window v).enabled } := by
  by_cases h : v = w
  · subst h
    simp
  · rw [State.switchOff, State.window_withWindow_ne s (Ne.symm h)]
    simp [h]

/-- A disabled window is disabled without a change. -/
theorem State.switchOff_of_disabled {s : State} {w : WindowId} (h : (s.window w).enabled = false) :
    s.switchOff w = s := by
  have hw : { s.window w with enabled := false } = s.window w := by rw [← h]
  rw [State.switchOff, hw, State.withWindow, State.window]
  simp [State.withWindows]

/-- A window that does not apply to a port governs none of its requests, enabled or not (R85). -/
theorem State.governingWindow_switchOff {s : State} {w : WindowId} {p : Port} (h : (s.window w).appliesTo p = false)
    (word : WordIndex) : (s.switchOff w).governingWindow p word = s.governingWindow p word := by
  unfold State.governingWindow
  congr 1
  funext v
  rw [State.window_switchOff]
  by_cases hv : v = w
  · subst hv
    simp [h]
  · simp [hv, Window.contains, Window.appliesTo]

/-- A window that does not apply to a port is invisible to it (R85). -/
theorem State.classify_switchOff {s : State} {w : WindowId} {p : Port} (h : (s.window w).appliesTo p = false)
    (word : WordIndex) : (s.switchOff w).classify p word = s.classify p word := by
  have hop : (s.switchOff w).op = s.op := rfl
  simp only [State.classify, hop, State.governingWindow_switchOff h, State.window_switchOff]

/-! ## DISABLE_WINDOW -/

/-- The row DISABLE_WINDOW, heard by the management port (R89). -/
theorem exec_disableWindow_heard {s : State} (hs : s.takesFrames) (b : Byte) :
    exec (.disableWindow b) s = .next (s.unlessInit 0 fun s =>
      match argBelow 8 b with
      | none => s.refuse .badArgument 0
      | some w =>
        if !(s.window w).enabled then s.accept
        else if s.windowBusy w then s.refuse .busy 0
        else (s.switchOff w).accept) :=
  congrArg Host.Outcome.next (State.hearing_of_listening hs.1 hs.2 _)

theorem exec_disableWindow_of_init {s : State} (hs : s.takesFrames) (hi : s.op = .init) (b : Byte) :
    exec (.disableWindow b) s = .next (s.refuse .badState 0) := by
  rw [exec_disableWindow_heard hs, State.unlessInit_of_init hi]

theorem exec_disableWindow_of_bad_number {s : State} (hs : s.takesFrames) (hi : s.op ≠ .init) {b : Byte}
    (hb : 8 ≤ b.toNat) : exec (.disableWindow b) s = .next (s.refuse .badArgument 0) := by
  rw [exec_disableWindow_heard hs, State.unlessInit_of_ne hi, argBelow_none hb]

section
variable {s : State} (hs : s.takesFrames) (hi : s.op ≠ .init) {w : WindowId}
include hs hi

theorem exec_disableWindow_of_number : exec (.disableWindow (BitVec.ofNat 8 w.val)) s =
    .next (if !(s.window w).enabled then s.accept else if s.windowBusy w then s.refuse .busy 0
      else (s.switchOff w).accept) := by
  rw [exec_disableWindow_heard hs, State.unlessInit_of_ne hi, argBelow_ofNat (by decide)]

theorem exec_disableWindow_of_busy (he : (s.window w).enabled = true) (hb : s.windowBusy w = true) :
    exec (.disableWindow (BitVec.ofNat 8 w.val)) s = .next (s.refuse .busy 0) := by
  simp [exec_disableWindow_of_number hs hi, he, hb]

/-- A disabled window and one without work are disabled. -/
theorem exec_disableWindow_of_not_busy (h : (s.window w).enabled = false ∨ s.windowBusy w = false) :
    exec (.disableWindow (BitVec.ofNat 8 w.val)) s = .next (s.switchOff w).accept := by
  rw [exec_disableWindow_of_number hs hi]
  cases he : (s.window w).enabled with
  | false => simp [State.switchOff_of_disabled he]
  | true => simp [h.resolve_left (by simp [he])]

end

/-! ## The work of a window -/

theorem State.windowBusy_of_pass {s : State} {w : WindowId} (h : (s.window w).cls = .pass) : s.windowBusy w = false := by
  simp only [State.windowBusy, h]

/-- A STAGED window has work with a write in passage or a live entry of its group in its range (R89). -/
theorem State.windowBusy_staged_iff {s : State} {w : WindowId} {g : GroupId} {view : ReadView}
    (h : (s.window w).cls = .staged g view) : s.windowBusy w = true ↔ (s.window w).passage ≠ 0 ∨
      ∃ (i : PoolIndex) (e : Entry), s.entry i = some e ∧ e.group = g ∧ (s.window w).contains e.word = true := by
  simp only [State.windowBusy, h, Bool.or_eq_true, decide_eq_true_eq, List.any_eq_true, List.mem_finRange, true_and]
  refine or_congr_right (exists_congr fun i => ?_)
  cases he : s.entry i with
  | none => simp
  | some e => simp

/-! ## The obligations -/

/-- Settles O21, from what says when a window contains, applies, overlaps and shares, and from the classification with
the window off. -/
theorem windowRangesAndPorts : Obligations.WindowRangesAndPorts :=
  ⟨Window.contains_iff, Window.appliesTo_eq, fun _ _ => Window.overlaps_iff, Window.sharesPort_iff,
    fun _ _ _ word h => (State.classify_switchOff h word).symm⟩

/-- Settles O24, by the cases of R89: the refusals, a window disabled at once, and a STAGED one with and without work. -/
theorem disableWindowWaitsForItsWork : Obligations.DisableWindowWaitsForItsWork := by
  refine ⟨fun s b hs hr => ?_, fun s w hs hi => ⟨fun h => ?_, fun g view he hc => ⟨fun h => ?_, fun hp hn => ?_⟩⟩⟩
  · by_cases hi : s.op = .init
    · rw [exec_disableWindow_of_init hs hi, if_pos hi]
      rfl
    · rw [exec_disableWindow_of_bad_number hs hi (hr.resolve_left hi), if_neg hi]
      rfl
  · exact exec_disableWindow_of_not_busy hs hi (h.imp_right State.windowBusy_of_pass)
  · exact exec_disableWindow_of_busy hs hi he ((State.windowBusy_staged_iff hc).mpr h)
  · refine exec_disableWindow_of_not_busy hs hi (.inr (Bool.eq_false_iff.mpr fun hb => ?_))
    rcases (State.windowBusy_staged_iff hc).mp hb with h | ⟨i, e, hei, heg, hew⟩
    · exact h hp
    · simp [hn i e hei heg] at hew

end Sys2Proof.Machine

/-! PROOFS. The capture queue (R146, R147), POP_CAPTURE (R148) and the layout of its records (10.6). -/

namespace Sys2Proof.Machine

/-! ## Counts that saturate -/

/-- A byte that counts stays at 255 (R147). -/
theorem saturatingSucc_byte (x : Byte) : saturatingSucc x = if x = 255 then 255 else x + 1 := by
  unfold saturatingSucc
  split <;> simp_all

/-! ## The bytes of a result -/

/-- Byte k of a number is the quotient by its weight, modulo 256 (R169). -/
theorem byteOf_eq_ofNat {w : Nat} (x : BitVec w) (k : Nat) : byteOf x k = BitVec.ofNat 8 (x.toNat / 256 ^ k) := by
  apply BitVec.eq_of_toNat_eq
  simp [byteOf, Nat.shiftRight_eq_div_pow, pow_mul]

theorem bytesLE_eq_map {w : Nat} (n : Nat) (x : BitVec w) :
    bytesLE n x = (List.range n).map fun k => BitVec.ofNat 8 (x.toNat / 256 ^ k) :=
  List.map_congr_left fun k _ => byteOf_eq_ofNat x k

@[simp] theorem length_bytesLE {w : Nat} (n : Nat) (x : BitVec w) : (bytesLE n x).length = n := by
  simp [bytesLE]

theorem bytesWord_eq_map (w : WordIndex) :
    bytesWord w = (List.range 5).map fun k => BitVec.ofNat 8 (8 * w.toNat / 256 ^ k) := by
  rw [bytesWord, bytesLE_eq_map, toNat_wordAddress]

@[simp] theorem length_bytesWord (w : WordIndex) : (bytesWord w).length = 5 := length_bytesLE 5 _

/-! ## The layout of a stored record (10.6) -/

/-- An ACCESS record, its payload read as the byte mask and the data or as zeros. -/
theorem StoredRecord.bytes_access (lost : Byte) (c : ChannelId) (x : Stamp) (p : Port) (a : Access) (w : WordIndex)
    (e : Bool) (d : Option (LaneSet × Lanes)) (k : BitVec 16) :
    StoredRecord.bytes ⟨.access c x p a w e d k, lost⟩ =
      [1] ++ byteNat c.val ++ byteBool x.running ++ [lost] ++ bytesLE 4 x.cycle ++ bytesLE 2 x.counter ++
        [portCode p, accessCode a] ++ byteBool e ++ byteBool d.isSome ++ bytesWord w ++ [(d.map (·.1)).getD 0] ++
        bytesLE 2 k ++ (d.map fun y => y.2.toList).getD (List.replicate 8 0) ++ [0, 0] := by
  cases d with
  | none => rfl
  | some y => rfl

/-- Every record takes the whole of its 32 bytes (R148). -/
theorem StoredRecord.length_bytes (r : StoredRecord) : r.bytes.length = 32 := by
  obtain ⟨record, lost⟩ := r
  cases record with
  | access c x p a w e d k =>
    rw [StoredRecord.bytes_access]
    cases d <;> simp [byteNat, byteBool]
  | commit g n x drained failed late => simp [StoredRecord.bytes, byteNat, byteBool]

theorem portCode_eq (p : Port) : portCode p = if decide (p = .b) then 1 else 0 := by cases p <;> rfl

theorem accessCode_eq (a : Access) : accessCode a = if decide (a = .write) then 1 else 0 := by cases a <;> rfl

/-! ## Records handed on -/

section
variable {s : State} (r : CaptureRecord)

/-- A record that is stored (R146). -/
theorem State.handRecord_of_room (h : s.cap.queue.length < 32) : s.handRecord r =
    (s.withCap { s.cap with queue := s.cap.queue ++ [⟨r, s.cap.lost⟩], lost := 0 }).refreshReady :=
  if_pos h

/-- A record that is dropped (R147). -/
theorem State.handRecord_of_full (h : 32 ≤ s.cap.queue.length) : s.handRecord r =
    (s.withCap { s.cap with lost := saturatingSucc s.cap.lost }).raise .captureLost :=
  if_neg (Nat.not_lt.mpr h)

end

theorem State.handRecord_stores {s : State} (r : CaptureRecord) (h : s.cap.queue.length < 32) :
    (s.handRecord r).cap = { s.cap with queue := s.cap.queue ++ [⟨r, s.cap.lost⟩], lost := 0 } ∧
      (s.handRecord r).ev.causes.getLsbD 17 = s.ev.causes.getLsbD 17 := by
  rw [State.handRecord_of_room r h]
  exact ⟨by simp, State.refreshReady_bit _ 17⟩

theorem State.handRecord_drops {s : State} (r : CaptureRecord) (h : 32 ≤ s.cap.queue.length) :
    (s.handRecord r).cap = { s.cap with lost := if s.cap.lost = 255 then 255 else s.cap.lost + 1 } ∧
      (s.handRecord r).ev.causes = s.ev.causes ||| BitVec.twoPow 19 17 := by
  rw [State.handRecord_of_full r h, ← saturatingSucc_byte]
  exact ⟨by simp, rfl⟩

/-! ## POP_CAPTURE -/

/-- The row POP_CAPTURE, heard by the management port (R148). -/
theorem exec_popCapture_heard {s : State} (hs : s.takesFrames) :
    exec .popCapture s = .next (s.unlessInit 32 State.popCapture) :=
  congrArg Host.Outcome.next (State.hearing_of_listening hs.1 hs.2 _)

theorem State.popCapture_of_nil {s : State} (h : s.cap.queue = []) :
    s.popCapture = s.reply .accepted (List.replicate 32 0) := by
  simp only [State.popCapture, h]

theorem State.popCapture_of_cons {s : State} {r : StoredRecord} {rest : List StoredRecord}
    (h : s.cap.queue = r :: rest) :
    s.popCapture = ((s.withCap { s.cap with queue := rest }).refreshReady).reply .accepted r.bytes := by
  simp only [State.popCapture, h]

theorem exec_popCapture_of_init {s : State} (hs : s.takesFrames) (hi : s.op = .init) :
    exec .popCapture s = .next (s.refuse .badState 32) := by
  rw [exec_popCapture_heard hs, State.unlessInit_of_init hi]

theorem exec_popCapture_of_ne {s : State} (hs : s.takesFrames) (hi : s.op ≠ .init) :
    exec .popCapture s = .next s.popCapture := by
  rw [exec_popCapture_heard hs, State.unlessInit_of_ne hi]

/-! ## The obligation -/

/-- Settles O51, from what a record handed on does with and without room, the cases of POP_CAPTURE, and the layouts of
the two kinds of record. -/
theorem captureQueueStoresDropsAndPops : Obligations.CaptureQueueStoresDropsAndPops := by
  refine ⟨fun s r => ⟨State.handRecord_stores r, State.handRecord_drops r⟩, fun s hs => ⟨fun hi => ?_,
    fun hi hq => ?_, fun r rest hi hq => ?_⟩, fun r x => ⟨fun c p a w e d k hr => ?_, fun g n drained failed late hr => ?_⟩⟩
  · exact exec_popCapture_of_init hs hi
  · rw [exec_popCapture_of_ne hs hi, State.popCapture_of_nil hq]
    rfl
  · rw [exec_popCapture_of_ne hs hi, State.popCapture_of_cons hq]
    exact ⟨_, rfl, rfl, r.length_bytes, rfl, State.refreshReady_bit _⟩
  · obtain ⟨record, lost⟩ := r
    cases hr
    simp only [StoredRecord.bytes_access, bytesWord_eq_map, bytesLE_eq_map, portCode_eq, accessCode_eq]
    rfl
  · obtain ⟨record, lost⟩ := r
    cases hr
    simp only [StoredRecord.bytes, bytesLE_eq_map]
    rfl

end Sys2Proof.Machine

/-! PROOFS. CLEAR_CAUSES (R159), SET_ENABLES (R157) and the layout of a cause set in a result (R178). -/

namespace Sys2Proof.Machine

/-! ## The cause set and the enable set -/

theorem stickyCauses_bit : ∀ i : Fin 19, stickyCauses.getLsbD i.val = decide (i.val ≠ 18) := by decide

/-- A clear leaves the causes it does not name, and CAPTURE_READY whether named or not (R159). -/
theorem EventUnit.clear_bit (e : EventUnit) (named : CauseSet) (i : Fin 19) :
    (e.clear named).causes.getLsbD i.val =
      (e.causes.getLsbD i.val && (!named.getLsbD i.val || decide (i.val = 18))) := by
  simp only [EventUnit.clear, EventUnit.evaluated, BitVec.getLsbD_and, BitVec.getLsbD_not, stickyCauses_bit]
  simp

/-- The found set of a clear: the sticky causes named that were set (R159). -/
def EventUnit.found (named : CauseSet) (e : EventUnit) : CauseSet := e.causes &&& (named &&& stickyCauses)

theorem EventUnit.found_bit (e : EventUnit) (named : CauseSet) (i : Fin 19) :
    (e.found named).getLsbD i.val =
      (e.causes.getLsbD i.val && named.getLsbD i.val && decide (i.val ≠ 18)) := by
  simp only [EventUnit.found, BitVec.getLsbD_and, stickyCauses_bit, Bool.and_assoc]

/-- A member of the three argument bytes is a member of the cause set they spell. -/
theorem getLsbD_causeSet (c : BitVec 24) (i : Fin 19) : (c.setWidth 19).getLsbD i.val = c.getLsbD i.val := by
  simp

theorem toNat_causeSet {c : BitVec 24} (h : c.toNat < 2 ^ 19) : (c.setWidth 19 : CauseSet).toNat = c.toNat := by
  rw [BitVec.toNat_setWidth, Nat.mod_eq_of_lt h]

/-- The bytes of a number do not depend on the width it is kept in. -/
theorem bytesLE_congr {v w : Nat} {x : BitVec v} {y : BitVec w} (h : x.toNat = y.toNat) (n : Nat) :
    bytesLE n x = bytesLE n y := by
  rw [bytesLE_eq_map, bytesLE_eq_map, h]

/-! ## A command that carries a set of causes -/

/-- How the event unit judges a set of causes (R178): refused in INIT, refused with a member above 18, else taken. -/
def State.onCauses (c : BitVec 24) (f : CauseSet → State → State) (s : State) : State :=
  s.unlessInit 7 fun s =>
    match argCauses c with
    | none => s.refuse .badArgument 7
    | some set => f set s

section
variable {s : State} {c : BitVec 24} (f : CauseSet → State → State)

theorem State.onCauses_of_init (hi : s.op = .init) : s.onCauses c f = s.refuse .badState 7 :=
  State.unlessInit_of_init hi ..

theorem State.onCauses_of_bad_set (hi : s.op ≠ .init) (hc : 2 ^ 19 ≤ c.toNat) :
    s.onCauses c f = s.refuse .badArgument 7 := by
  rw [State.onCauses, State.unlessInit_of_ne hi, argCauses_none hc]

theorem State.onCauses_of_set (hi : s.op ≠ .init) (hc : c.toNat < 2 ^ 19) :
    s.onCauses c f = f (c.setWidth 19) s := by
  rw [State.onCauses, State.unlessInit_of_ne hi, argCauses_spec hc]

end

/-- CLEAR_CAUSES accepted: the event unit cleared, the found set, the cause set and IRQ_N in the result (R159). -/
def State.clearCauses (named : CauseSet) (s : State) : State :=
  (s.withEv (s.ev.clear named)).reply .accepted
    (bytesLE 3 (s.ev.found named) ++ bytesLE 3 (s.ev.clear named).causes ++ byteBool (s.ev.clear named).irq)

/-- SET_ENABLES accepted: the enable set replaced, the enable set, the cause set and IRQ_N in the result (R157). -/
def State.setEnables (set : CauseSet) (s : State) : State :=
  (s.withEv (s.ev.enable set)).reply .accepted
    (bytesLE 3 set ++ bytesLE 3 s.ev.causes ++ byteBool (s.ev.enable set).irq)

section
variable {s : State} (hs : s.takesFrames) (c : BitVec 24)
include hs

/-- The row CLEAR_CAUSES, heard by the management port (R159). -/
theorem exec_clearCauses_heard : exec (.clearCauses c) s = .next (s.onCauses c State.clearCauses) :=
  congrArg Host.Outcome.next (State.hearing_of_listening hs.1 hs.2 _)

/-- The row SET_ENABLES, heard by the management port (R157). -/
theorem exec_setEnables_heard : exec (.setEnables c) s = .next (s.onCauses c State.setEnables) :=
  congrArg Host.Outcome.next (State.hearing_of_listening hs.1 hs.2 _)

end

/-! ## The obligation -/

/-- Settles O53: each command is judged on its set of causes, and an accepted one does to the two sets what the bits of
the event unit's clear and enable say. -/
theorem causeAndEnableCommands : Obligations.CauseAndEnableCommands := by
  refine ⟨fun s c hs => ?_, fun s c hs => ?_⟩
  · rw [exec_clearCauses_heard hs]
    refine ⟨fun hi => ?_, fun hi hc => ?_, fun hi hc => ?_⟩
    · rw [State.onCauses_of_init _ hi]
      rfl
    · rw [State.onCauses_of_bad_set _ hi hc]
      rfl
    · rw [State.onCauses_of_set _ hi hc]
      refine ⟨_, s.ev.found (c.setWidth 19), rfl, rfl, rfl, rfl, fun i => ?_⟩
      rw [← getLsbD_causeSet c i]
      exact ⟨s.ev.clear_bit _ i, s.ev.found_bit _ i⟩
  · rw [exec_setEnables_heard hs]
    refine ⟨fun hi => ?_, fun hi hc => ?_, fun hi hc => ?_⟩
    · rw [State.onCauses_of_init _ hi]
      rfl
    · rw [State.onCauses_of_bad_set _ hi hc]
      rfl
    · rw [State.onCauses_of_set _ hi hc, ← bytesLE_congr (toNat_causeSet hc)]
      exact ⟨_, rfl, rfl, rfl, toNat_causeSet hc, rfl⟩

end Sys2Proof.Machine

/-! PROOFS. READ_IDENTITY (R179): the five bytes, and the command as the management port hears it. -/

namespace Sys2Proof.Machine

/-- The vendor code 0A41h and the part code 7240h, each in two bytes with the low one first, then the revision (R179). -/
theorem identityBytes_eq : identityBytes = [0x41#8, 0x0A#8, 0x40#8, 0x72#8, 0x01#8] := by decide

/-- The row READ_IDENTITY, heard by the management port: no guard on the operating state stands before the answer. -/
theorem exec_readIdentity_heard {s : State} (hs : s.takesFrames) :
    exec .readIdentity s = .next (s.reply .accepted identityBytes) :=
  congrArg Host.Outcome.next (State.hearing_of_listening hs.1 hs.2 _)

/-- Settles O10: a heard READ_IDENTITY is an accepted reply, which writes the result alone, and its data are the five
bytes. -/
theorem identityIsFixed : Obligations.IdentityIsFixed := by
  intro s hs
  rw [exec_readIdentity_heard hs, identityBytes_eq]
  rfl

end Sys2Proof.Machine

/-! PROOFS. What every change does to the timebase (R123, R125). -/

namespace Sys2Proof.Machine

/-! ## The timebase through every change -/

@[simp] theorem State.discardFrame_tb (s : State) (n : Nat) : (s.discardFrame n).tb = s.tb := by
  unfold State.discardFrame; split <;> rfl

@[simp] theorem State.writeSlotOffset_tb (s : State) (g : GroupId) (v : BitVec 16) : (s.writeSlotOffset g v).tb = s.tb := by
  unfold State.writeSlotOffset; split <;> simp

/-- The timebase after a wrap: every pending value is in force, whether or not there was one (R123). -/
theorem State.wrap_tb (s : State) : s.wrap.tb = s.tb.wrapped := by
  unfold State.wrap
  simp only [State.slotInstant_frame, State.rearmAtWrap_frame]
  split
  · simp [State.applyPending, Timebase.wrapped]
  · rename_i h
    simp only [State.anyPending, Bool.or_eq_true, not_or, Bool.not_eq_true, Option.isSome_eq_false_iff,
      Option.isNone_iff_eq_none] at h
    obtain ⟨⟨hp, hq⟩, -⟩ := h
    simp [Timebase.wrapped, hp, hq]

theorem State.timebaseAgrees_of_tb {s t : State} (h : t.tb = s.tb) (hs : s.timebaseAgrees) : t.timebaseAgrees := by
  unfold State.timebaseAgrees; rw [h]; exact hs

/-- A wrap starts the counter at 0, below every period (R125). -/
theorem State.timebaseAgrees_wrap {s : State} (h2 : 2 ≤ s.tb.period.toNat)
    (hp : ∀ v, s.tb.pendingPeriod = some v → 2 ≤ v.toNat) (hr : 10 ≤ s.tb.refFreq.toNat ∧ s.tb.refFreq.toNat ≤ 200) :
    s.wrap.timebaseAgrees := by
  have hperiod : 2 ≤ (s.tb.pendingPeriod.getD s.tb.period).toNat := by
    cases hq : s.tb.pendingPeriod with
    | none => exact h2
    | some v => exact hp v hq
  unfold State.timebaseAgrees
  rw [State.wrap_tb]
  refine ⟨hperiod, fun v hv => by simp [Timebase.wrapped] at hv, fun _ => ?_, hr.1, hr.2⟩
  exact lt_of_lt_of_le Nat.zero_lt_two hperiod

theorem Change.keeps_timebase {s t : State} (hs : s.timebaseAgrees) (h : Change s t) : t.timebaseAgrees := by
  have hs' := hs
  obtain ⟨h2, hp, hc, hr1, hr2⟩ := hs'
  cases h with
  | counterStep =>
    unfold State.counterStep
    split
    · rename_i hb
      simp only [State.belowLast, Bool.and_eq_true, decide_eq_true_eq] at hb
      refine State.timebaseAgrees_of_tb (by simp) (s := s.withTb { s.tb with counter := s.tb.counter + 1 })
        ⟨h2, hp, fun _ => ?_, hr1, hr2⟩
      have := s.tb.counter.isLt
      simp only [State.withTb_tb, BitVec.toNat_add, BitVec.ofNat_eq_ofNat, BitVec.toNat_ofNat]
      omega
    · exact hs
  | naturalWrap =>
    unfold State.naturalWrap
    split
    · exact State.timebaseAgrees_wrap h2 hp ⟨hr1, hr2⟩
    · exact hs
  | syncEdge =>
    unfold State.syncEdge
    dsimp only
    repeat' split
    · exact State.timebaseAgrees_wrap h2 hp ⟨hr1, hr2⟩
    · exact State.timebaseAgrees_wrap h2 hp ⟨hr1, hr2⟩
    · exact hs
  | refFreq v lo hi => exact ⟨h2, hp, hc, lo, hi⟩
  | writePrescale v =>
    unfold Timebase.writePrescale
    split <;> exact ⟨h2, hp, hc, hr1, hr2⟩
  | writePeriod v h =>
    unfold State.writePeriod
    split
    · exact ⟨h2, fun w hw => by cases hw; exact h, hc, hr1, hr2⟩
    · rename_i hrun
      exact State.timebaseAgrees_of_tb (by simp) (s := s.withTb { s.tb with period := v, pendingPeriod := none })
        ⟨h, fun w hw => by simp at hw, fun hw => absurd hw hrun, hr1, hr2⟩
  | startTimebase =>
    exact State.timebaseAgrees_of_tb (by simp [State.startTimebase])
      (s := s.withTb { s.tb with counter := 0, tickDivider := 0, running := true })
      ⟨h2, hp, fun _ => lt_of_lt_of_le Nat.zero_lt_two h2, hr1, hr2⟩
  | stopTimebase => exact ⟨h2, hp, fun h => by simp at h, hr1, hr2⟩
  | usDivider | tickDivider | usAdvance | syncEnable => exact ⟨h2, hp, hc, hr1, hr2⟩
  | _ => exact State.timebaseAgrees_of_tb (by simp) hs

theorem State.reset_timebaseAgrees : State.reset.timebaseAgrees :=
  ⟨by decide, fun v hv => by simp [State.reset, Timebase.reset] at hv, by decide, by decide, by decide⟩

theorem step_keeps_timebase {s t : State} (hs : s.timebaseAgrees) (h : step s = .next t) : t.timebaseAgrees := by
  exact step_keeps State.timebaseAgrees (fun _ _ hs => hs)
    (fun _ _ _ => State.timebaseAgrees_of_tb (s := State.reset) rfl State.reset_timebaseAgrees)
    (fun _ _ => Change.keeps_timebase) s t hs h

end Sys2Proof.Machine

/-! PROOFS. What a command can come to: the effect each row has, and the one outcome of a frame: not heard, refused with
nothing changed, a report, or the effect and its result (R166, R168). -/

namespace Sys2Proof.Machine

/-! ## The effect of each row -/

/-- The change a command makes when it is not refused, with the arguments it read. -/
inductive Effect (s : State) : Instr → State → Prop
  | initComplete : Effect s .initComplete s.initComplete
  | usClockAdvance : Effect s .usClockAdvance s.usAdvance
  | counterStep : Effect s .counterStep s.counterStep
  | naturalWrap : Effect s .naturalWrap s.naturalWrap
  | syncInEdge : Effect s .syncInEdge s.syncEdge
  | commitInEdge : Effect s .commitInEdge s.commitInEdge
  | holdLimitExpiry (p : Port) : Effect s (.holdLimitExpiry p) (s.expireHold p)
  | drainBudgetExpiry (g : GroupId) : Effect s (.drainBudgetExpiry g) (s.expireBudget g)
  | requestAccept (p : Port) (r : BusRequest) (h : r.wellFormed = true) :
      Effect s (.requestAccept p r) (s.presentRequest p r)
  | stagedWritePlacement (p : Port) : Effect s (.stagedWritePlacement p) (s.placeHead p)
  | grant : Effect s .grant s.grant
  | memoryResponse (status : Status) (memory : Lanes) (tag : Tag) :
      Effect s (.memoryResponse status memory tag) (s.memoryResponse status memory)
  | responseTaken (p : Port) : Effect s (.responseTaken p) (s.takeResponse p)
  | partialFrame (n : Nat) : Effect s (.partialFrame n) (s.discardFrame n)
  | referenceFrequency (i b v : Byte) (lo : 10 ≤ v.toNat) (hi : v.toNat ≤ 200) :
      Effect s (.putSettingReferenceFrequency i b) (s.withTb { s.tb with refFreq := v })
  | timebasePrescale (i b v : Byte) :
      Effect s (.putSettingTimebasePrescale i b) (s.withTb (s.tb.writePrescale v))
  | period (i : Byte) (b v : BitVec 16) (h : 2 ≤ v.toNat) : Effect s (.putSettingPeriod i b) (s.writePeriod v)
  | syncEnable (i b : Byte) (v : Bool) :
      Effect s (.putSettingSyncEnable i b) (s.withTb { s.tb with syncEnable := v })
  | grantPolicy (i b : Byte) (v : GrantPolicy) :
      Effect s (.putSettingGrantPolicy i b) (s.withArb { s.arb with policy := v })
  | captureThreshold (i b v : Byte) (lo : 1 ≤ v.toNat) (hi : v.toNat ≤ 32) :
      Effect s (.putSettingCaptureThreshold i b) (s.withCap { s.cap with threshold := v }).refreshReady
  | groupOn (i b : Byte) (g : GroupId) :
      Effect s (.putSettingGroupEnabled i b) (s.withGroup g { s.group g with enabled := true })
  | groupOff (i b : Byte) (g : GroupId) (h : s.windows.any (·.names g) = false) :
      Effect s (.putSettingGroupEnabled i b) (s.withGroup g { s.group g with enabled := false })
  | triggerSource (i b : Byte) (g : GroupId) (v : TriggerSource) :
      Effect s (.putSettingTriggerSource i b) (s.withGroup g { s.group g with trigger := v })
  | slotOffset (i : Byte) (b : BitVec 16) (g : GroupId) (v : BitVec 16) :
      Effect s (.putSettingSlotOffset i b) (s.writeSlotOffset g v)
  | mode (i b : Byte) (g : GroupId) (v : GroupMode) (h : (s.group g).isQuiet = true) :
      Effect s (.putSettingMode i b) (s.withGroup g { s.group g with mode := v })
  | fullPolicy (i b : Byte) (g : GroupId) (v : FullPolicy) (h : (s.group g).isQuiet = true) :
      Effect s (.putSettingFullPolicy i b) (s.withGroup g { s.group g with policy := v })
  | entryLimit (i b : Byte) (g : GroupId) (v : Byte) (h : (s.group g).isQuiet = true) (lo : 1 ≤ v.toNat)
      (hi : v.toNat ≤ 64) : Effect s (.putSettingEntryLimit i b) (s.withGroup g { s.group g with entryLimit := v })
  | holdLimit (i : Byte) (b : BitVec 16) (g : GroupId) (v : BitVec 12) :
      Effect s (.putSettingHoldLimit i b) (s.withGroup g { s.group g with holdLimit := v })
  | drainBudget (i : Byte) (b : BitVec 16) (g : GroupId) (v : BitVec 12) :
      Effect s (.putSettingDrainBudget i b) (s.withGroup g { s.group g with drainBudget := v })
  | logCommits (i b : Byte) (g : GroupId) (v : Bool) :
      Effect s (.putSettingLogCommits i b) (s.withGroup g { s.group g with logCommits := v })
  | channelEnabled (i b : Byte) (c : ChannelId) (v : Bool) :
      Effect s (.putSettingChannelEnabled i b) (s.withChannel c ((s.channel c).writeEnabled v))
  | direction (i b : Byte) (c : ChannelId) (v : Direction) :
      Effect s (.putSettingDirection i b) (s.withChannel c { s.channel c with direction := v })
  | channelPrescale (i b : Byte) (c : ChannelId) (v : Byte) :
      Effect s (.putSettingChannelPrescale i b) (s.withChannel c { s.channel c with prescale := v, prescaleCount := 0 })
  | gate (i b : Byte) (c : ChannelId) (v : Bool) :
      Effect s (.putSettingGate i b) (s.withChannel c ((s.channel c).writeGate v))
  | rearmAtWrap (i b : Byte) (c : ChannelId) (v : Bool) :
      Effect s (.putSettingRearmAtWrap i b) (s.withChannel c { s.channel c with rearmAtWrap := v })
  | matching (i : Byte) (b b' : Lanes) (c : ChannelId) (value mask : Lanes) :
      Effect s (.putSettingMatch i b b') (s.withChannel c { s.channel c with matchValue := value, matchMask := mask })
  | recordData (i b : Byte) (c : ChannelId) (v : Bool) :
      Effect s (.putSettingRecordData i b) (s.withChannel c { s.channel c with recordData := v })
  | putWindow (i : Byte) (b b' : BitVec 40) (b₁ b₂ b₃ b₄ b₅ b₆ : Byte) (w : WindowId) (base limit : Address)
      (ports : PortSet) (cls : WindowClass) (channel : Option ChannelId) (off : (s.window w).enabled = false)
      (hb : base.toNat % 4096 = 0) (hl : limit.toNat % 4096 = 0) (hle : base.toNat ≤ limit.toNat) (hp : ports ≠ 0) :
      Effect s (.putWindow i b b' b₁ b₂ b₃ b₄ b₅ b₆) (s.withWindow w
        { s.window w with base := base, limit := limit, ports := ports, cls := cls, channel := channel })
  | enableWindow (i : Byte) (w : WindowId) (clear : s.conflictingWindow w = none)
      (named : s.groupMissing w = false) :
      Effect s (.enableWindow i) (s.withWindow w { s.window w with enabled := true })
  | disableWindow (i : Byte) (w : WindowId) :
      Effect s (.disableWindow i) (s.withWindow w { s.window w with enabled := false })
  | popCapture (r : StoredRecord) (rest : List StoredRecord) (h : s.cap.queue = r :: rest) :
      Effect s .popCapture (s.withCap { s.cap with queue := rest }).refreshReady
  | commitNow (b : Byte) (groups : List GroupId) : Effect s (.commitNow b) (State.commitNow groups s).1
  | abortGroup (b : Byte) (g : GroupId) : Effect s (.abortGroup b) (s.abortOpen g)
  | rearm (b : Byte) (set : BitVec 4) : Effect s (.rearm b) (s.withCap { s.cap with
      channels := Vector.ofFn fun c => if set.getLsbD c then (s.channel c).rearmed else s.channel c })
  | startTimebase (h : s.tb.running = false) : Effect s .startTimebase s.startTimebase
  | stopTimebase : Effect s .stopTimebase (s.withTb { s.tb with running := false })
  | enableBridge (h : s.op ≠ .init) : Effect s .enableBridge (s.withOp .active)
  | disableBridge (h : s.op ≠ .init) : Effect s .disableBridge (s.withOp .bypass)
  | resetDatapath (h : s.op ≠ .init) : Effect s .resetDatapath s.resetDatapath
  | clearCauses (b : BitVec 24) (named : CauseSet) : Effect s (.clearCauses b) (s.withEv (s.ev.clear named))
  | setEnables (b : BitVec 24) (set : CauseSet) : Effect s (.setEnables b) (s.withEv (s.ev.enable set))

/-- A change of the management port, of what has been seen of the edge inputs, and of the dividers, and of nothing else. -/
def State.Aside (s t : State) : Prop :=
  ∃ (m : ManagementPort) (x : EdgeInputs) (d e : Byte),
    t = { s with mgmt := m, inputs := x, tb := { s.tb with usDivider := d, tickDivider := e } }

/-- Every change of the block is the effect of a row or lies aside of what the rows change. -/
theorem Change.effect {s t : State} (h : Change s t) : (∃ c, Effect s c t) ∨ s.Aside t := by
  cases h with
  | reply code data => exact .inr ⟨_, _, _, _, rfl⟩
  | discardFrame n => exact .inl ⟨_, .partialFrame n⟩
  | listen => exact .inr ⟨_, _, _, _, rfl⟩
  | inputs x => exact .inr ⟨_, _, _, _, rfl⟩
  | usDivider x => exact .inr ⟨_, _, _, _, rfl⟩
  | tickDivider x => exact .inr ⟨_, _, _, _, rfl⟩
  | usAdvance => exact .inl ⟨_, .usClockAdvance⟩
  | initComplete => exact .inl ⟨_, .initComplete⟩
  | counterStep => exact .inl ⟨_, .counterStep⟩
  | naturalWrap => exact .inl ⟨_, .naturalWrap⟩
  | syncEdge => exact .inl ⟨_, .syncInEdge⟩
  | commitInEdge => exact .inl ⟨_, .commitInEdge⟩
  | expireHold p => exact .inl ⟨_, .holdLimitExpiry p⟩
  | expireBudget g => exact .inl ⟨_, .drainBudgetExpiry g⟩
  | presentRequest p r h => exact .inl ⟨_, .requestAccept p r h⟩
  | placeHead p => exact .inl ⟨_, .stagedWritePlacement p⟩
  | grant => exact .inl ⟨_, .grant⟩
  | memoryResponse st d => exact .inl ⟨_, .memoryResponse st d 0⟩
  | takeResponse p => exact .inl ⟨_, .responseTaken p⟩
  | refFreq v lo hi => exact .inl ⟨_, .referenceFrequency 0 v v lo hi⟩
  | writePrescale v => exact .inl ⟨_, .timebasePrescale 0 v v⟩
  | writePeriod v h => exact .inl ⟨_, .period 0 v v h⟩
  | syncEnable v => exact .inl ⟨_, .syncEnable 0 0 v⟩
  | grantPolicy v => exact .inl ⟨_, .grantPolicy 0 0 v⟩
  | threshold v lo hi => exact .inl ⟨_, .captureThreshold 0 v v lo hi⟩
  | groupOn g => exact .inl ⟨_, .groupOn 0 1 g⟩
  | groupOff g h => exact .inl ⟨_, .groupOff 0 0 g h⟩
  | trigger g v => exact .inl ⟨_, .triggerSource 0 0 g v⟩
  | writeSlotOffset g v => exact .inl ⟨_, .slotOffset 0 v g v⟩
  | mode g v h => exact .inl ⟨_, .mode 0 0 g v h⟩
  | policy g v h => exact .inl ⟨_, .fullPolicy 0 0 g v h⟩
  | entryLimit g v h lo hi => exact .inl ⟨_, .entryLimit 0 v g v h lo hi⟩
  | holdLimit g v => exact .inl ⟨_, .holdLimit 0 0 g v⟩
  | drainBudget g v => exact .inl ⟨_, .drainBudget 0 0 g v⟩
  | logCommits g v => exact .inl ⟨_, .logCommits 0 0 g v⟩
  | channelEnabled c v => exact .inl ⟨_, .channelEnabled 0 0 c v⟩
  | direction c v => exact .inl ⟨_, .direction 0 0 c v⟩
  | channelPrescale c v => exact .inl ⟨_, .channelPrescale 0 v c v⟩
  | gate c v => exact .inl ⟨_, .gate 0 0 c v⟩
  | rearmSetting c v => exact .inl ⟨_, .rearmAtWrap 0 0 c v⟩
  | matching c value mask => exact .inl ⟨_, .matching 0 value mask c value mask⟩
  | recordData c v => exact .inl ⟨_, .recordData 0 0 c v⟩
  | putWindow w base limit ports cls channel off hb hl hle hp =>
    exact .inl ⟨_, .putWindow 0 0 0 0 0 0 0 0 0 w base limit ports cls channel off hb hl hle hp⟩
  | enableWindow w clear named => exact .inl ⟨_, .enableWindow 0 w clear named⟩
  | disableWindow w => exact .inl ⟨_, .disableWindow 0 w⟩
  | pop r rest h => exact .inl ⟨_, .popCapture r rest h⟩
  | commitNow groups => exact .inl ⟨_, .commitNow 0 groups⟩
  | abortOpen g => exact .inl ⟨_, .abortGroup 0 g⟩
  | rearm set => exact .inl ⟨_, .rearm 0 set⟩
  | startTimebase h => exact .inl ⟨_, .startTimebase h⟩
  | stopTimebase => exact .inl ⟨_, .stopTimebase⟩
  | enableBridge h => exact .inl ⟨_, .enableBridge h⟩
  | disableBridge h => exact .inl ⟨_, .disableBridge h⟩
  | resetDatapath h => exact .inl ⟨_, .resetDatapath h⟩
  | clearCauses named => exact .inl ⟨_, .clearCauses 0 named⟩
  | setEnables set => exact .inl ⟨_, .setEnables 0 set⟩

/-! ## The outcome of a command -/

/-- What a command comes to: nothing, because RESET_N is low or an edge is not taken; a frame that only makes the port
listen; a refusal; a report that changes nothing; the two refusals that carry data; the effect of a row; the effect of an
accepted frame with its result. -/
inductive Outcome (c : Instr) (s : State) : State → Prop
  | deaf (h : s.takesFrames → c.isFrame = false) : Outcome c s s
  | unheard (h : s.mgmt.listening = false) : Outcome c s (s.withMgmt { s.mgmt with listening := true })
  | refused (code : ResultCode) : Outcome c s (s.refuse code c.dataLength)
  | shown (data : List Byte) : Outcome c s (s.reply .accepted data)
  | clash (b : Byte) (v : WindowId) (h : c = .enableWindow b) :
      Outcome c s (s.reply .badArgument (conflictBytes (some v)))
  | occupied (h : c = .disableBridge) : Outcome c s (s.reply .busy (conditionByte s.busyConditions))
  | row (h : c.isFrame = false) {t : State} (e : Effect s c t) : Outcome c s t
  | done {t : State} (e : Effect s c t) (data : List Byte) : Outcome c s (t.reply .accepted data)

section
variable {c : Instr} {s : State}

theorem Outcome.awake {f : State → State} (h : c.isFrame = false) (e : Effect s c (f s)) : Outcome c s (s.awake f) := by
  unfold State.awake
  split
  · exact .deaf fun _ => h
  · exact .row h e

theorem Outcome.onEdge {f : State → State} (line : EdgeInput) (h : c.isFrame = false) (e : Effect s c (f s)) :
    Outcome c s (s.onEdge line f) := by
  unfold State.onEdge State.awake
  split
  · exact .deaf fun _ => h
  · dsimp only
    split
    · exact .row h e
    · exact .deaf fun _ => h

theorem Outcome.hearing {f : State → State} (h : Outcome c s (f s)) : Outcome c s (s.hearing f) := by
  unfold State.hearing State.awake
  split
  · rename_i hl; exact .deaf fun hs => by simp [hs.1] at hl
  · dsimp only
    split
    · exact h
    · rename_i hl; exact .unheard (by simpa using hl)

theorem Outcome.unlessInit {f : State → State} {n : Nat} (hn : n = c.dataLength) (h : s.op ≠ .init → Outcome c s (f s)) :
    Outcome c s (s.unlessInit n f) := by
  unfold State.unlessInit
  split
  · rw [hn]; exact .refused _
  · rename_i hi; exact h hi

theorem Outcome.putGlobal {α : Type} {owner : α → State → State} {index : Byte} {arg : Option α} (hn : c.dataLength = 0)
    (h : ∀ v, arg = some v → Outcome c s (owner v s)) : Outcome c s (s.hearing (State.putGlobal index arg owner)) := by
  refine .hearing (.unlessInit hn.symm fun _ => ?_)
  split
  · rw [← hn]; exact .refused _
  · split
    · rw [← hn]; exact .refused _
    · exact h _ rfl

theorem Outcome.putIndexed {α : Type} {owner : Fin 4 → α → State → State} {index : Byte} {arg : Option α}
    (hn : c.dataLength = 0) (h : ∀ n v, arg = some v → Outcome c s (owner n v s)) :
    Outcome c s (s.hearing (State.putIndexed index arg owner)) := by
  refine .hearing (.unlessInit hn.symm fun _ => ?_)
  split
  · exact h _ _ rfl
  · rw [← hn]; exact .refused _

theorem Outcome.setQuietGroup {α : Type} {f : α → Group → Group} {g : GroupId} {v : α} (hn : c.dataLength = 0)
    (h : (s.group g).isQuiet = true → Effect s c (s.withGroup g (f v (s.group g)))) :
    Outcome c s (s.setQuietGroup f g v) := by
  unfold State.setQuietGroup
  split
  · rename_i hq; exact .done (h hq) _
  · rw [← hn]; exact .refused _

end

/-- What each command but the two RESET_N rows comes to. -/
theorem exec_outcome {c : Instr} {s t : State} (h : exec c s = .next t) (h1 : c ≠ .resetNAssert) (h2 : c ≠ .resetNRelease) :
    Outcome c s t := by
  cases c
  case resetNAssert => exact absurd rfl h1
  case resetNRelease => exact absurd rfl h2
  case initComplete => cases h; exact .awake rfl .initComplete
  case usClockAdvance => cases h; exact .awake rfl .usClockAdvance
  case counterStep => cases h; exact .awake rfl .counterStep
  case naturalWrap => cases h; exact .awake rfl .naturalWrap
  case syncInEdge => cases h; exact .onEdge _ rfl .syncInEdge
  case commitInEdge => cases h; exact .onEdge _ rfl .commitInEdge
  case holdLimitExpiry p => cases h; exact .awake rfl (.holdLimitExpiry p)
  case drainBudgetExpiry g => cases h; exact .awake rfl (.drainBudgetExpiry g)
  case requestAccept p r =>
    simp only [exec, execRequestAccept] at h
    split at h
    · rename_i hw; cases h; exact .awake rfl (.requestAccept p r hw)
    · cases h
  case stagedWritePlacement p => cases h; exact .awake rfl (.stagedWritePlacement p)
  case grant => cases h; exact .awake rfl .grant
  case memoryResponse st d tag => cases h; exact .awake rfl (.memoryResponse st d tag)
  case responseTaken p => cases h; exact .awake rfl (.responseTaken p)
  case partialFrame n => cases h; exact .hearing (.row rfl (.partialFrame n))
  case unknownCommand b =>
    simp only [exec, execUnknownCommand] at h
    split at h
    · cases h
    · cases h; exact .hearing (.refused .unknownCommand)
  case getSetting item i =>
    cases h
    refine .hearing (.unlessInit rfl fun _ => ?_)
    split
    · exact .shown _
    · exact .refused _
  case putSettingReferenceFrequency i b =>
    cases h
    refine .putGlobal rfl fun v hv => ?_
    obtain ⟨lo, hi, -⟩ := argRange_spec hv
    exact .done (.referenceFrequency i b v lo hi) _
  case putSettingTimebasePrescale i b => cases h; exact .putGlobal rfl fun v _ => .done (.timebasePrescale i b v) _
  case putSettingPeriod i b => cases h; exact .putGlobal rfl fun v hv => .done (.period i b v (argPeriod_spec hv).1) _
  case putSettingSyncEnable i b => cases h; exact .putGlobal rfl fun v _ => .done (.syncEnable i b v) _
  case putSettingGrantPolicy i b => cases h; exact .putGlobal rfl fun v _ => .done (.grantPolicy i b v) _
  case putSettingCaptureThreshold i b =>
    cases h
    refine .putGlobal rfl fun v hv => ?_
    obtain ⟨lo, hi, -⟩ := argRange_spec hv
    exact .done (.captureThreshold i b v lo hi) _
  case putSettingGroupEnabled i b =>
    cases h
    refine .putIndexed rfl fun g v _ => ?_
    unfold State.writeGroupEnabled
    repeat' split
    · exact .done (.groupOn i b g) _
    · exact .shown _
    · exact .refused _
    · rename_i hn; exact .done (.groupOff i b g (by simpa using hn)) _
  case putSettingTriggerSource i b => cases h; exact .putIndexed rfl fun g v _ => .done (.triggerSource i b g v) _
  case putSettingSlotOffset i b => cases h; exact .putIndexed rfl fun g v _ => .done (.slotOffset i b g v) _
  case putSettingMode i b => cases h; exact .putIndexed rfl fun g v _ => .setQuietGroup rfl (.mode i b g v)
  case putSettingFullPolicy i b => cases h; exact .putIndexed rfl fun g v _ => .setQuietGroup rfl (.fullPolicy i b g v)
  case putSettingEntryLimit i b =>
    cases h
    refine .putIndexed rfl fun g v hv => .setQuietGroup rfl fun hq => ?_
    obtain ⟨lo, hi, -⟩ := argRange_spec hv
    exact .entryLimit i b g v hq lo hi
  case putSettingHoldLimit i b => cases h; exact .putIndexed rfl fun g v _ => .done (.holdLimit i b g v) _
  case putSettingDrainBudget i b => cases h; exact .putIndexed rfl fun g v _ => .done (.drainBudget i b g v) _
  case putSettingLogCommits i b => cases h; exact .putIndexed rfl fun g v _ => .done (.logCommits i b g v) _
  case putSettingChannelEnabled i b => cases h; exact .putIndexed rfl fun c v _ => .done (.channelEnabled i b c v) _
  case putSettingDirection i b => cases h; exact .putIndexed rfl fun c v _ => .done (.direction i b c v) _
  case putSettingChannelPrescale i b => cases h; exact .putIndexed rfl fun c v _ => .done (.channelPrescale i b c v) _
  case putSettingGate i b => cases h; exact .putIndexed rfl fun c v _ => .done (.gate i b c v) _
  case putSettingRearmAtWrap i b => cases h; exact .putIndexed rfl fun c v _ => .done (.rearmAtWrap i b c v) _
  case putSettingMatch i b b' => cases h; exact .putIndexed rfl fun c v _ => .done (.matching i b b' c v.1 v.2) _
  case putSettingRecordData i b => cases h; exact .putIndexed rfl fun c v _ => .done (.recordData i b c v) _
  case putWindow =>
    cases h
    refine .hearing (.unlessInit rfl fun _ => ?_)
    split
    · rename_i hf
      split
      · exact .refused _
      · rename_i hoff
        obtain ⟨hb, hl, hle, hp⟩ := windowFields_spec hf
        exact .done (.putWindow _ _ _ _ _ _ _ _ _ _ _ _ _ _ _ (by simpa using hoff) hb hl hle hp) _
    · exact .refused _
  case enableWindow b =>
    cases h
    refine .hearing (.unlessInit rfl fun _ => ?_)
    repeat' split
    · exact .refused _
    · exact .shown _
    · exact .clash b _ rfl
    · exact .refused _
    · rename_i hc hm; exact .done (.enableWindow b _ hc (by simpa using hm)) _
  case disableWindow b =>
    cases h
    refine .hearing (.unlessInit rfl fun _ => ?_)
    repeat' split
    · exact .refused _
    · exact .shown _
    · exact .refused _
    · exact .done (.disableWindow b _) _
  case readWindow =>
    cases h
    refine .hearing (.unlessInit rfl fun _ => ?_)
    split
    · exact .refused _
    · exact .shown _
  case readStatus =>
    cases h
    refine .hearing ?_
    split
    · exact .shown _
    · exact .refused _
  case readEntry =>
    cases h
    refine .hearing (.unlessInit rfl fun _ => ?_)
    split
    · exact .refused _
    · exact .shown _
  case popCapture =>
    cases h
    refine .hearing (.unlessInit rfl fun _ => ?_)
    unfold State.popCapture
    split
    · exact .shown _
    · rename_i hq; exact .done (.popCapture _ _ hq) _
  case commitNow b =>
    cases h
    refine .hearing ?_
    repeat' split
    · exact .refused _
    · exact .refused _
    · exact .done (.commitNow b _) _
    · exact .refused _
  case abortGroup b =>
    cases h
    refine .hearing ?_
    repeat' split
    · exact .refused _
    · exact .refused _
    · exact .done (.abortGroup b _) _
  case rearm b =>
    cases h
    refine .hearing ?_
    repeat' split
    · exact .refused _
    · exact .refused _
    · exact .refused _
    · exact .done (.rearm b _) _
  case startTimebase =>
    cases h
    refine .hearing (.unlessInit rfl fun _ => ?_)
    split
    · exact .refused _
    · rename_i hr; exact .done (.startTimebase (by simpa using hr)) _
  case stopTimebase => cases h; exact .hearing (.unlessInit rfl fun _ => .done .stopTimebase _)
  case enableBridge => cases h; exact .hearing (.unlessInit rfl fun hi => .done (.enableBridge hi) _)
  case disableBridge =>
    cases h
    refine .hearing (.unlessInit rfl fun hi => ?_)
    split
    · exact .occupied rfl
    · exact .done (.disableBridge hi) _
  case resetDatapath => cases h; exact .hearing (.unlessInit rfl fun hi => .done (.resetDatapath hi) _)
  case clearCauses b =>
    cases h
    refine .hearing (.unlessInit rfl fun _ => ?_)
    split
    · exact .refused _
    · exact .done (.clearCauses b _) _
  case setEnables b =>
    cases h
    refine .hearing (.unlessInit rfl fun _ => ?_)
    split
    · exact .refused _
    · exact .done (.setEnables b _) _
  case readIdentity => cases h; exact .hearing (.shown _)
  case putSettingUnknownItem =>
    simp only [exec, execPutSettingUnknownItem] at h
    split at h
    · cases h
    · cases h; exact .hearing (.unlessInit rfl fun _ => .refused _)

end Sys2Proof.Machine

/-! PROOFS. What every change does to the capture unit and the event unit, and what it keeps of them (R134, R146, R149, R158). -/

namespace Sys2Proof.Machine

/-! ## What a change does to the capture unit and the event unit -/

/-- A channel's prescale count is 0 while it is GATED, and never above its prescale (R134, R139). -/
def Channel.agrees (ch : Channel) : Prop :=
  (ch.state = .gated → ch.prescaleCount = 0) ∧ ch.prescaleCount.toNat ≤ ch.prescale.toNat

/-- One step at the capture unit and the event unit: a recording; channels written, with the capture queue and the threshold
as they stand; the capture unit written and CAPTURE_READY re-evaluated. -/
inductive CaptureStep : State → State → Prop
  | recording {s t : State} (h : Recording s t) : CaptureStep s t
  | channels {s t : State} (hev : t.ev = s.ev) (hq : t.cap.queue = s.cap.queue) (ht : t.cap.threshold = s.cap.threshold)
      (hc : ∀ c, (s.channel c).agrees → (t.channel c).agrees) : CaptureStep s t
  | refresh (s : State) (x : CaptureUnit) (hq : x.queue.length ≤ s.cap.queue.length)
      (ht : x.threshold = s.cap.threshold ∨ 1 ≤ x.threshold.toNat ∧ x.threshold.toNat ≤ 32)
      (hc : ∀ c, (s.channel c).agrees → ((s.withCap x).channel c).agrees) : CaptureStep s (s.withCap x).refreshReady

/-- A chain of such steps. -/
abbrev CaptureSteps : State → State → Prop := Relation.ReflTransGen CaptureStep

theorem Recordings.captureSteps {s t : State} (h : Recordings s t) : CaptureSteps s t :=
  Relation.ReflTransGen.mono (r := Recording) (p := CaptureStep) (fun _ _ => .recording) _ _ h

/-- A change outside the capture unit and the causes. -/
theorem CaptureSteps.elsewhere {s t : State} (hev : t.ev = s.ev) (hcap : t.cap = s.cap) : CaptureSteps s t :=
  .single (.recording (.elsewhere hev hcap))

/-- A chain of steps after a change outside the capture unit and the causes. -/
theorem CaptureSteps.after {s u t : State} (h : CaptureSteps u t) (hev : u.ev = s.ev) (hcap : u.cap = s.cap) :
    CaptureSteps s t :=
  Relation.ReflTransGen.trans (CaptureSteps.elsewhere hev hcap) h

/-- One channel written. -/
theorem CaptureSteps.channel {s : State} {c : ChannelId} {x : Channel} (h : (s.channel c).agrees → x.agrees) :
    CaptureSteps s (s.withChannel c x) := by
  refine .single (.channels (by simp) (by simp) (by simp) fun d hd => ?_)
  by_cases e : c = d
  · subst e; rw [State.channel_withChannel_same]; exact h hd
  · rw [State.channel_withChannel_ne _ e]; exact hd

theorem Channel.rearmed_agrees {ch : Channel} (h : ch.agrees) : ch.rearmed.agrees := by
  unfold Channel.rearmed
  split
  · exact ⟨fun _ => rfl, Nat.zero_le _⟩
  · exact h

theorem Channel.rearmedIf_agrees {ch : Channel} {b : Prop} [Decidable b] (h : ch.agrees) :
    (if b then ch.rearmed else ch).agrees := by
  split
  · exact Channel.rearmed_agrees h
  · exact h

theorem Channel.writeEnabled_agrees {ch : Channel} (on : Bool) (h : ch.agrees) : (ch.writeEnabled on).agrees := by
  unfold Channel.writeEnabled
  split
  · exact ⟨fun _ => rfl, Nat.zero_le _⟩
  · exact h
  · exact h
  · exact ⟨fun h => (nomatch h), h.2⟩

theorem Channel.writeGate_agrees {ch : Channel} (on : Bool) (h : ch.agrees) : (ch.writeGate on).agrees := by
  unfold Channel.writeGate
  dsimp only
  split
  · exact h
  · exact Channel.rearmed_agrees h

theorem State.evaluateSlotRange_steps (s : State) : CaptureSteps s s.evaluateSlotRange := by
  unfold State.evaluateSlotRange
  dsimp only
  split
  · exact .tail (.single (.recording (.elsewhere (by simp) (by simp)))) (.recording (.raise _ _ (by simp)))
  · exact .elsewhere (by simp) (by simp)

theorem State.rearmAtWrap_channel (s : State) (c : ChannelId) :
    s.rearmAtWrap.channel c = if (s.channel c).rearmAtWrap then (s.channel c).rearmed else s.channel c := by
  simp only [State.rearmAtWrap, State.channel, State.withCap_cap, Fin.getElem_fin, Vector.getElem_map]; rfl

theorem State.wrap_steps (s : State) : CaptureSteps s s.wrap := by
  unfold State.wrap
  dsimp only
  refine .trans ?_ (State.slotInstant_records _).captureSteps
  refine .tail (b := if s.anyPending = true then _ else _) ?_ (.channels (by simp) rfl rfl fun c hc => ?_)
  · split
    · exact CaptureSteps.after (State.evaluateSlotRange_steps _) (by simp) (by simp)
    · exact CaptureSteps.elsewhere (by simp) (by simp)
  · rw [State.rearmAtWrap_channel]
    exact Channel.rearmedIf_agrees hc

/-- RESET_DATAPATH at the capture unit (R152). -/
theorem State.resetDatapath_steps (s : State) : CaptureSteps s s.resetDatapath := by
  unfold State.resetDatapath
  refine .trans ?_ (State.moveOnAll_records _ _).captureSteps
  refine .trans ?_ (CaptureSteps.elsewhere
    (s := (s.withOp .bypass).discardEntries.markPassages.resetDrain.resetCapture) (by simp) (by simp))
  refine .tail (CaptureSteps.elsewhere (t := (s.withOp .bypass).discardEntries.markPassages.resetDrain) (by simp) (by simp))
    (.refresh _ _ (Nat.zero_le _) (.inl rfl) fun c hc => ?_)
  simp only [State.channel, State.withCap_cap, Fin.getElem_fin, Vector.getElem_map] at hc ⊢
  split
  · exact hc
  · exact ⟨fun h => (nomatch h), Nat.zero_le _⟩

/-- Every effect but those of CLEAR_CAUSES and SET_ENABLES is a chain of steps at the capture unit and the event unit. -/
theorem Effect.captureSteps {c : Instr} {s t : State} (h : Effect s c t) (hc : ∀ b, c ≠ .clearCauses b)
    (he : ∀ b, c ≠ .setEnables b) : CaptureSteps s t := by
  cases h with
  | partialFrame n => unfold State.discardFrame; split <;> exact CaptureSteps.elsewhere rfl rfl
  | counterStep =>
    unfold State.counterStep
    split
    · exact CaptureSteps.after (State.slotInstant_records _).captureSteps rfl rfl
    · exact .refl
  | naturalWrap =>
    unfold State.naturalWrap
    split
    · exact s.wrap_steps
    · exact .refl
  | syncInEdge =>
    unfold State.syncEdge
    dsimp only
    repeat' split
    · exact CaptureSteps.after (.trans (.single (.recording (.raise _ .truncated (by simp)))) (State.wrap_steps _)) rfl rfl
    · exact CaptureSteps.after (State.wrap_steps _) rfl rfl
    · exact .refl
  | commitInEdge => exact s.commitInEdge_records.captureSteps
  | holdLimitExpiry p => exact (s.expireHold_records p).captureSteps
  | drainBudgetExpiry g => exact (s.expireBudget_records g).captureSteps
  | requestAccept p r => exact (s.presentRequest_records p r).captureSteps
  | stagedWritePlacement p => exact (s.placeHead_records p).captureSteps
  | grant => exact s.grant_records.captureSteps
  | memoryResponse status memory => exact (s.memoryResponse_records status memory).captureSteps
  | responseTaken p => exact (s.takeResponse_records p).captureSteps
  | commitNow _ groups => exact (State.commitNow_records groups s).captureSteps
  | abortGroup _ g => exact (s.abortOpen_records g).captureSteps
  | startTimebase => exact CaptureSteps.after (State.slotInstant_records _).captureSteps rfl rfl
  | period _ _ v =>
    unfold State.writePeriod
    split
    · exact CaptureSteps.elsewhere rfl rfl
    · exact CaptureSteps.after (State.evaluateSlotRange_steps _) rfl rfl
  | slotOffset _ _ g v =>
    unfold State.writeSlotOffset
    split
    · exact CaptureSteps.elsewhere rfl rfl
    · exact CaptureSteps.after (State.evaluateSlotRange_steps _) rfl rfl
  | captureThreshold _ _ v lo hi => exact .single (.refresh s { s.cap with threshold := v } le_rfl (.inr ⟨lo, hi⟩) fun _ h => h)
  | popCapture r rest h =>
    exact .single (.refresh s { s.cap with queue := rest } (by simp [h]) (.inl rfl) fun _ h => h)
  | channelEnabled _ _ c v => exact .channel (Channel.writeEnabled_agrees v)
  | gate _ _ c v => exact .channel (Channel.writeGate_agrees v)
  | channelPrescale _ _ c v => exact .channel fun _ => ⟨fun _ => rfl, Nat.zero_le _⟩
  | direction _ _ c v => exact .channel id
  | rearmAtWrap _ _ c v => exact .channel id
  | matching _ _ _ c value mask => exact .channel id
  | recordData _ _ c v => exact .channel id
  | rearm _ set =>
    refine .single (.channels rfl rfl rfl fun c hc => ?_)
    simp only [State.channel, State.withCap_cap, Fin.getElem_fin, Vector.getElem_ofFn] at hc ⊢
    exact Channel.rearmedIf_agrees hc
  | resetDatapath => exact s.resetDatapath_steps
  | clearCauses b => exact absurd rfl (hc b)
  | setEnables b => exact absurd rfl (he b)
  | _ => exact .elsewhere (by simp) (by simp)

/-- Every change is such a chain, or clears causes, or writes the enables. -/
theorem Change.captureSteps {s t : State} (h : Change s t) :
    CaptureSteps s t ∨ (∃ named, t = s.withEv (s.ev.clear named)) ∨ ∃ set, t = s.withEv (s.ev.enable set) := by
  obtain ⟨c, e⟩ | ⟨m, x, d, d', rfl⟩ := h.effect
  · by_cases hc : ∃ b, c = .clearCauses b
    · obtain ⟨b, rfl⟩ := hc
      cases e with
      | clearCauses _ named => exact .inr (.inl ⟨named, rfl⟩)
    · by_cases he : ∃ b, c = .setEnables b
      · obtain ⟨b, rfl⟩ := he
        cases e with
        | setEnables _ set => exact .inr (.inr ⟨set, rfl⟩)
      · exact .inl (e.captureSteps (not_exists.mp hc) (not_exists.mp he))
  · exact .inl (CaptureSteps.elsewhere rfl rfl)

/-! ## IRQ_N (R158) -/

theorem State.irqAgrees_of_ev {s t : State} (h : t.ev = s.ev) (hs : s.irqAgrees) : t.irqAgrees := by
  unfold State.irqAgrees; rw [h]; exact hs

/-- Wherever the event unit has just evaluated IRQ_N, it agrees. -/
theorem State.irqAgrees_of_evaluated {t : State} {e : EventUnit} (h : t.ev = e.evaluated) : t.irqAgrees := by
  unfold State.irqAgrees; rw [h]; rfl

theorem State.handRecord_irqAgrees (s : State) (r : CaptureRecord) : (s.handRecord r).irqAgrees := by
  unfold State.handRecord
  split <;> exact State.irqAgrees_of_evaluated rfl

theorem State.takeHit_cases (s : State) (h : Hit) :
    s.takeHit h = s ∨ (∃ x, s.takeHit h = s.withChannel h.channel x ∧ ((s.channel h.channel).agrees → x.agrees)) ∨
      ∃ x r, s.takeHit h = (s.withChannel h.channel x).handRecord r ∧ x.agrees := by
  unfold State.takeHit
  dsimp only
  repeat' split
  · exact .inl rfl
  · exact .inr (.inl ⟨_, rfl, id⟩)
  · rename_i hn
    refine .inr (.inl ⟨_, rfl, fun ha => ?_⟩)
    obtain ⟨h0, hle⟩ := ha
    refine ⟨fun hg => ?_, ?_⟩
    · simp only [Channel.skipped] at hg ⊢
      rw [if_neg (by rw [hg]; decide)]
      exact h0 hg
    · simp only [Channel.skipped]
      split
      · rename_i ha
        have hlt := hn.resolve_left (by simp [ha])
        simp only [BitVec.toNat_add, BitVec.ofNat_eq_ofNat, BitVec.toNat_ofNat]
        omega
      · exact hle
  · exact .inr (.inr ⟨_, _, rfl, fun _ => rfl, Nat.zero_le _⟩)

theorem CaptureStep.keeps_irq {s t : State} (hs : s.irqAgrees) (h : CaptureStep s t) : t.irqAgrees := by
  cases h with
  | recording h =>
    cases h with
    | elsewhere hev _ => exact State.irqAgrees_of_ev hev hs
    | raise c _ => exact State.irqAgrees_of_evaluated rfl
    | record r => exact s.handRecord_irqAgrees r
    | hit h =>
      rcases s.takeHit_cases h with e | ⟨x, e, -⟩ | ⟨x, r, e, -⟩ <;> rw [e]
      · exact hs
      · exact State.irqAgrees_of_ev (by simp) hs
      · exact State.handRecord_irqAgrees _ r
  | channels hev => exact State.irqAgrees_of_ev hev hs
  | refresh => exact State.irqAgrees_of_evaluated rfl

/-! ## The channels' counts (R134, R139) -/

theorem State.channelsAgree_iff (s : State) : s.channelsAgree ↔ ∀ c, (s.channel c).agrees := Iff.rfl

@[simp] theorem State.handRecord_channel (s : State) (r : CaptureRecord) (c : ChannelId) :
    (s.handRecord r).channel c = s.channel c := by
  unfold State.handRecord
  split <;> rfl

theorem State.withChannel_channelsAgree {s : State} {c : ChannelId} {x : Channel} (hs : s.channelsAgree) (hx : x.agrees) :
    (s.withChannel c x).channelsAgree := by
  intro d
  by_cases e : c = d
  · subst e; rw [State.channel_withChannel_same]; exact hx
  · rw [State.channel_withChannel_ne _ e]; exact hs d

theorem CaptureStep.keeps_channels {s t : State} (hs : s.channelsAgree) (h : CaptureStep s t) : t.channelsAgree := by
  cases h with
  | recording h =>
    cases h with
    | elsewhere _ hcap => intro c; simp only [State.channel, hcap]; exact hs c
    | raise => exact hs
    | record r => intro c; rw [State.handRecord_channel]; exact hs c
    | hit h =>
      rcases s.takeHit_cases h with e | ⟨x, e, hx⟩ | ⟨x, r, e, hx⟩ <;> rw [e]
      · exact hs
      · exact State.withChannel_channelsAgree hs (hx (hs _))
      · intro c
        rw [State.handRecord_channel]
        exact State.withChannel_channelsAgree hs hx c
  | channels _ _ _ hc => exact fun c => hc c (hs c)
  | refresh x _ _ hc => exact fun c => hc c (hs c)

/-! ## The capture queue and CAPTURE_READY (R146, R149) -/

/-- A change that leaves the queue, the threshold and the cause CAPTURE_READY. -/
theorem State.captureAgrees_of_same {s t : State} (hq : t.cap.queue = s.cap.queue) (ht : t.cap.threshold = s.cap.threshold)
    (hb : t.ev.causes.getLsbD 18 = s.ev.causes.getLsbD 18) (hs : s.captureAgrees) : t.captureAgrees := by
  unfold State.captureAgrees; rw [hq, ht, hb]; exact hs

/-- Wherever CAPTURE_READY has just been re-evaluated, it agrees. -/
theorem State.refreshReady_captureAgrees {s : State} (hq : s.cap.queue.length ≤ 32) (h1 : 1 ≤ s.cap.threshold.toNat)
    (h2 : s.cap.threshold.toNat ≤ 32) : s.refreshReady.captureAgrees :=
  ⟨by simpa using hq, by simpa using h1, by simpa using h2, by simpa using s.refreshReady_bit ⟨18, by decide⟩⟩

theorem Cause.member_ne_of_sticky {c : Cause} (h : c ≠ .captureReady) : c.member ≠ 18 := by
  cases c with
  | captureReady => exact absurd rfl h
  | slotMissed g | drainLate g | drainFault g => have := g.isLt; simp only [Cause.member]; omega
  | _ => decide

/-- A sticky cause set leaves CAPTURE_READY. -/
theorem State.raise_bit18 (s : State) {c : Cause} (h : c ≠ .captureReady) :
    (s.raise c).ev.causes.getLsbD 18 = s.ev.causes.getLsbD 18 := by
  have := s.raise_bit c ⟨18, by decide⟩
  simpa [(Cause.member_ne_of_sticky h).symm] using this

theorem State.handRecord_captureAgrees {s : State} (r : CaptureRecord) (hs : s.captureAgrees) :
    (s.handRecord r).captureAgrees := by
  obtain ⟨hq, h1, h2, hb⟩ := hs
  unfold State.handRecord
  split
  · rename_i hlt
    exact State.refreshReady_captureAgrees (by simpa [Config.captureDepth] using hlt) h1 h2
  · exact State.captureAgrees_of_same (by simp) (by simp) (State.raise_bit18 _ (by simp)) ⟨hq, h1, h2, hb⟩

theorem CaptureStep.keeps_capture {s t : State} (hs : s.captureAgrees) (h : CaptureStep s t) : t.captureAgrees := by
  cases h with
  | recording h =>
    cases h with
    | elsewhere hev hcap => exact State.captureAgrees_of_same (by rw [hcap]) (by rw [hcap]) (by rw [hev]) hs
    | raise c hc => exact State.captureAgrees_of_same (by simp) (by simp) (s.raise_bit18 hc) hs
    | record r => exact State.handRecord_captureAgrees r hs
    | hit h =>
      have hx (x : Channel) : (s.withChannel h.channel x).captureAgrees := State.captureAgrees_of_same rfl rfl rfl hs
      rcases s.takeHit_cases h with e | ⟨x, e, -⟩ | ⟨x, r, e, -⟩ <;> rw [e]
      · exact hs
      · exact hx x
      · exact State.handRecord_captureAgrees r (hx x)
  | channels hev hq ht => exact State.captureAgrees_of_same hq ht (by rw [hev]) hs
  | refresh x hq ht =>
    obtain ⟨hq', h1, h2, -⟩ := hs
    refine State.refreshReady_captureAgrees (hq.trans hq') ?_ ?_
    · rcases ht with ht | ht
      · simpa [ht] using h1
      · exact ht.1
    · rcases ht with ht | ht
      · simpa [ht] using h2
      · exact ht.2

/-- Clearing causes leaves CAPTURE_READY (R159). -/
theorem State.clear_captureAgrees {s : State} (named : CauseSet) (hs : s.captureAgrees) :
    (s.withEv (s.ev.clear named)).captureAgrees := by
  refine State.captureAgrees_of_same (s := s) rfl rfl ?_ hs
  simpa using s.ev.clear_bit named ⟨18, by decide⟩

/-! ## The obligation -/

/-- What every step at the capture unit and the event unit keeps, and CLEAR_CAUSES and SET_ENABLES keep, every step of the
block keeps. -/
theorem step_keeps_of_captureSteps (P : State → Prop) (congr : ∀ s t : State, t.ev = s.ev → t.cap = s.cap → P s → P t)
    (reset : P State.reset) (keeps : ∀ s t, P s → CaptureStep s t → P t)
    (clear : ∀ s named, P s → P (s.withEv (s.ev.clear named))) (enable : ∀ s set, P s → P (s.withEv (s.ev.enable set))) :
    ∀ s t, P s → step s = .next t → P t := by
  refine step_keeps P (fun s x => congr s _ rfl rfl) (fun s _ _ => congr State.reset _ rfl rfl reset) fun s t hs h => ?_
  obtain chain | ⟨named, rfl⟩ | ⟨set, rfl⟩ := h.captureSteps
  · clear h
    induction chain with
    | refl => exact hs
    | tail _ hc ih => exact keeps _ _ ih hc
  · exact clear s named hs
  · exact enable s set hs

theorem State.reset_irqAgrees : State.reset.irqAgrees := rfl

theorem State.reset_captureAgrees : State.reset.captureAgrees := ⟨by decide, by decide, by decide, by decide⟩

theorem State.reset_channel (c : ChannelId) : State.reset.channel c = Channel.reset := by
  simp [State.channel, State.reset, CaptureUnit.reset]

theorem State.reset_channelsAgree : State.reset.channelsAgree := by
  intro c
  rw [State.reset_channel]
  exact ⟨fun _ => rfl, Nat.zero_le _⟩

/-- Settles O57: the causes, the capture unit and the timebase each keep their agreement through every change a step is made
of. -/
theorem eventCaptureAndTimebaseInvariant : Obligations.EventCaptureAndTimebaseInvariant := by
  refine ⟨fun s t h => ⟨fun hs => ?_, fun hs => ?_, fun hs => ?_⟩, fun s t hs h => step_keeps_timebase hs h⟩
  · exact step_keeps_of_captureSteps State.irqAgrees (fun _ _ he _ => State.irqAgrees_of_ev he) State.reset_irqAgrees
      (fun _ _ => CaptureStep.keeps_irq) (fun _ _ _ => State.irqAgrees_of_evaluated rfl)
      (fun _ _ _ => State.irqAgrees_of_evaluated rfl) s t hs h
  · exact step_keeps_of_captureSteps State.captureAgrees
      (fun _ _ he hc => State.captureAgrees_of_same (by rw [hc]) (by rw [hc]) (by rw [he])) State.reset_captureAgrees
      (fun _ _ => CaptureStep.keeps_capture) (fun _ => State.clear_captureAgrees)
      (fun _ _ => State.captureAgrees_of_same rfl rfl rfl) s t hs h
  · exact step_keeps_of_captureSteps State.channelsAgree (fun _ _ _ hc hs c => by simp only [State.channel, hc]; exact hs c)
      State.reset_channelsAgree (fun _ _ => CaptureStep.keeps_channels) (fun _ _ hs => hs) (fun _ _ hs => hs) s t hs h

end Sys2Proof.Machine

/-! PROOFS. The block as a whole: steps and periods, what completes, RESET_N, refusals, and the causes that stay (R154 to
R182). -/

namespace Sys2Proof.Machine

/-! ## Settings written: what they leave -/

@[simp] theorem State.discardFrame_frame (s : State) (n : Nat) :
    (s.discardFrame n).op = s.op ∧ (s.discardFrame n).windows = s.windows ∧ (s.discardFrame n).groups = s.groups ∧
    (s.discardFrame n).tb = s.tb ∧ (s.discardFrame n).cap = s.cap ∧ (s.discardFrame n).ev = s.ev ∧
    (s.discardFrame n).portA = s.portA ∧ (s.discardFrame n).portB = s.portB ∧
    (s.discardFrame n).inputs = s.inputs ∧ (s.discardFrame n).pending = s.pending := by
  unfold State.discardFrame; split <;> simp

@[simp] theorem State.writePeriod_frame (s : State) (v : BitVec 16) :
    (s.writePeriod v).op = s.op ∧ (s.writePeriod v).windows = s.windows ∧ (s.writePeriod v).cap = s.cap ∧
    (s.writePeriod v).portA = s.portA ∧ (s.writePeriod v).portB = s.portB ∧ (s.writePeriod v).inputs = s.inputs ∧
    (s.writePeriod v).pending = s.pending := by
  unfold State.writePeriod; split <;> simp

@[simp] theorem State.writeSlotOffset_frame (s : State) (g : GroupId) (v : BitVec 16) :
    (s.writeSlotOffset g v).op = s.op ∧ (s.writeSlotOffset g v).windows = s.windows ∧
    (s.writeSlotOffset g v).cap = s.cap ∧ (s.writeSlotOffset g v).portA = s.portA ∧
    (s.writeSlotOffset g v).portB = s.portB ∧ (s.writeSlotOffset g v).inputs = s.inputs ∧
    (s.writeSlotOffset g v).pending = s.pending := by
  unfold State.writeSlotOffset; split <;> simp

/-! ## Which commands complete -/

/-- Every well-formed command but the two RESET_N rows does nothing while RESET_N is low (R180). -/
theorem exec_awake {c : Instr} (s : State) (hw : c.wellFormed = true) (h1 : c ≠ .resetNAssert) (h2 : c ≠ .resetNRelease) :
    ∃ f, exec c s = .next (s.awake f) := by
  cases c
  case resetNAssert => exact absurd rfl h1
  case resetNRelease => exact absurd rfl h2
  case requestAccept p r => exact ⟨_, if_pos hw⟩
  case unknownCommand b => exact ⟨_, if_neg (by simpa [Instr.wellFormed] using hw)⟩
  case putSettingUnknownItem item i => exact ⟨_, if_neg (by simpa [Instr.wellFormed] using hw)⟩
  all_goals exact ⟨_, rfl⟩

/-- Every row that is a frame is heard by the port before anything else (R167). -/
theorem exec_hearing {c : Instr} (s : State) (hw : c.wellFormed = true)
    (hc : c.isFrame = true ∨ ∃ n, c = .partialFrame n) : ∃ f, exec c s = .next (s.hearing f) := by
  cases c
  case resetNAssert | resetNRelease | initComplete | usClockAdvance | counterStep | naturalWrap | syncInEdge |
      commitInEdge | holdLimitExpiry | drainBudgetExpiry | requestAccept | stagedWritePlacement | grant |
      memoryResponse | responseTaken => simp [Instr.isFrame, encodeFrame] at hc
  case unknownCommand b => exact ⟨_, if_neg (by simpa [Instr.wellFormed] using hw)⟩
  case putSettingUnknownItem item i => exact ⟨_, if_neg (by simpa [Instr.wellFormed] using hw)⟩
  all_goals exact ⟨_, rfl⟩

theorem exec_wellFormed {c : Instr} (s : State) (hw : c.wellFormed = true) : ∃ t, exec c s = .next t := by
  by_cases h1 : c = .resetNAssert
  · subst h1; exact ⟨_, rfl⟩
  by_cases h2 : c = .resetNRelease
  · subst h2; exact ⟨_, rfl⟩
  obtain ⟨f, hf⟩ := exec_awake s hw h1 h2
  exact ⟨_, hf⟩

theorem exec_illFormed {c : Instr} (s : State) (hw : c.wellFormed = false) : ∃ m, exec c s = .refused (.illFormed m) := by
  cases c
  case requestAccept p r => exact ⟨_, if_neg (by simpa [Instr.wellFormed] using hw)⟩
  case unknownCommand b => exact ⟨_, if_pos (by simpa [Instr.wellFormed] using hw)⟩
  case putSettingUnknownItem item i => exact ⟨_, if_pos (by simpa [Instr.wellFormed, Option.isSome_iff_ne_none] using hw)⟩
  all_goals cases hw

theorem Effect.pending_inputs {c : Instr} {s t : State} (h : Effect s c t) :
    t.pending = s.pending ∧ t.inputs = s.inputs := by
  cases h <;> simp

theorem Outcome.pending_inputs {c : Instr} {s t : State} (h : Outcome c s t) :
    t.pending = s.pending ∧ t.inputs = s.inputs := by
  cases h with
  | row _ e => exact e.pending_inputs
  | done e data => simpa using e.pending_inputs
  | _ => simp

/-- Settles O1: a step is by definition the meaning of the front command on the rest. -/
theorem stepTakesTheFrontCommand : Obligations.StepTakesTheFrontCommand := by
  intro c rest s h
  simp [step, h]

/-- Settles O3: every well-formed row is guarded by RESET_N and no refusal, and every effect leaves queue and inputs. -/
theorem everyWellFormedCommandCompletes : Obligations.EveryWellFormedCommandCompletes := by
  refine fun c s => ⟨fun hw => ?_, exec_illFormed s⟩
  by_cases h1 : c = .resetNAssert
  · subst h1; exact ⟨_, rfl, rfl, fun h => absurd rfl h⟩
  by_cases h2 : c = .resetNRelease
  · subst h2
    refine ⟨_, rfl, ?_, fun _ h => absurd rfl h⟩
    split <;> rfl
  obtain ⟨t, ht⟩ := exec_wellFormed s hw
  obtain ⟨hp, hi⟩ := (exec_outcome ht h1 h2).pending_inputs
  exact ⟨t, ht, hp, fun _ _ => hi⟩

/-! ## One period of REFCLK -/

theorem runRows_append {xs ys : List Instr} : ∀ {s t : State}, runRows xs s = .next t →
    runRows (xs ++ ys) s = runRows ys t := by
  induction xs with
  | nil => intro s t h; cases h; rfl
  | cons c rest ih =>
    intro s t h
    rw [List.cons_append]
    simp only [runRows] at h ⊢
    split at h
    · exact ih h
    · cases h
    · cases h

theorem runRows_cons {c : Instr} {rest : List Instr} {s t : State} (h : exec c s = .next t) :
    runRows (c :: rest) s = runRows rest t := by
  simp only [runRows, h]

/-- Rows that are due only under a condition, against their effect under it. -/
theorem runRows_ifDue {due : Bool} {rows : List Instr} {f : State → State} {s : State}
    (h : due = true → runRows rows s = .next (f s)) : runRows (if due = true then rows else []) s = .next (s.ifDue due f) := by
  unfold State.ifDue
  split
  · rename_i hd; exact h hd
  · rfl

/-- The end of a microsecond brings its rows one after another (R118, R119). -/
theorem runRows_microsecond {s : State} (h : s.resetLow = false) :
    runRows [.usClockAdvance, .initComplete, .holdLimitExpiry .a, .holdLimitExpiry .b, .drainBudgetExpiry 0,
      .drainBudgetExpiry 1, .drainBudgetExpiry 2, .drainBudgetExpiry 3] s =
      .next s.usAdvance.initComplete.dueExpiries := by
  have row : ∀ {u : State} {c : Instr} {rest : List Instr} (f : State → State), u.resetLow = false →
      exec c u = .next (u.awake f) → runRows (c :: rest) u = runRows rest (f u) := fun f hu hc =>
    runRows_cons (hc.trans (by rw [State.awake_of_high hu]))
  rw [row State.usAdvance h rfl, row State.initComplete (by simpa using h) rfl,
    row (State.expireHold .a) (by simpa using h) rfl, row (State.expireHold .b) (by simpa using h) rfl,
    row (State.expireBudget 0) (by simpa using h) rfl, row (State.expireBudget 1) (by simpa using h) rfl,
    row (State.expireBudget 2) (by simpa using h) rfl, row (State.expireBudget 3) (by simpa using h) rfl]
  rfl

/-- The end of a tick brings COUNTER_STEP or NATURAL_WRAP (R117, R123). -/
theorem runRows_tick {s : State} (below : Prop) [Decidable below] (h : s.resetLow = false) :
    runRows [if below then .counterStep else .naturalWrap] s =
      .next (if below then s.counterStep else s.naturalWrap) := by
  split
  · exact runRows_cons (congrArg _ (State.awake_of_high h _))
  · exact runRows_cons (congrArg _ (State.awake_of_high h _))

theorem EdgeInput.rises_iff (x : EdgeInput) : x.rises = true ↔ x = ⟨true, .low⟩ := by
  obtain ⟨high, seen⟩ := x
  simp [EdgeInput.rises]

/-- An edge that the sample takes is a row of its input (R182). -/
theorem exec_edge_of_rises {line x : EdgeInput} {s : State} {f : State → State} (h : s.resetLow = false)
    (hl : line = x.sampled) (hr : x.rises = true) : s.onEdge line f = f s := by
  subst hl
  exact State.onEdge_of_hasBeenLow h (by simpa [EdgeInput.hasBeenLow] using EdgeInput.hasBeenLow_of_rises hr) f

@[simp] theorem State.ifDue_resetLow {f : State → State} {due : Bool} {s : State} (h : (f s).resetLow = s.resetLow) :
    (s.ifDue due f).resetLow = s.resetLow := by
  unfold State.ifDue; split
  · exact h
  · rfl

@[simp] theorem State.ifDue_inputs {f : State → State} {due : Bool} {s : State} (h : (f s).inputs = s.inputs) :
    (s.ifDue due f).inputs = s.inputs := by
  unfold State.ifDue; split
  · exact h
  · rfl

@[simp] theorem State.dueExpiries_resetLow (s : State) : s.dueExpiries.resetLow = s.resetLow := by
  simp [State.dueExpiries, List.finRange, List.ofFn_succ]

/-- The sampling of both lines, as R182 tells the cases apart. -/
theorem EdgeInput.sampled_eq (x : EdgeInput) : x.sampled =
    match x.high, x.seen with
    | false, _ => ⟨false, .low⟩
    | true, .highFromRelease => ⟨true, .highFromRelease⟩
    | true, _ => ⟨true, .high⟩ := by
  obtain ⟨high, seen⟩ := x
  cases high <;> cases seen <;> rfl

/-- The rows due in a period, taken one after another from the counted dividers, are the period (R117, R118, R182). -/
theorem refclkPeriod_rows {s : State} (h : s.resetLow = false) :
    runRows
      ((if s.microsecondEnds = true then [.usClockAdvance, .initComplete, .holdLimitExpiry .a, .holdLimitExpiry .b,
          .drainBudgetExpiry 0, .drainBudgetExpiry 1, .drainBudgetExpiry 2, .drainBudgetExpiry 3] else []) ++
        (if s.tickEnds = true then [if s.tb.counter.toNat + 1 < s.tb.period.toNat then .counterStep else .naturalWrap]
          else []) ++
        (if s.inputs.syncIn.rises = true then [.syncInEdge] else []) ++
        if s.inputs.commitIn.rises = true then [.commitInEdge] else []) s.countPeriod = .next s.refclkPeriod := by
  unfold State.refclkPeriod
  rw [State.awake_of_high h]
  have low : s.countPeriod.resetLow = false := h
  have micro := runRows_ifDue (due := s.microsecondEnds) (s := s.countPeriod)
    (f := fun u => u.usAdvance.initComplete.dueExpiries) fun _ => runRows_microsecond low
  rw [List.append_assoc, List.append_assoc, runRows_append micro]
  generalize hu : State.ifDue s.microsecondEnds (fun u => u.usAdvance.initComplete.dueExpiries) s.countPeriod = u
  have lowU : u.resetLow = false := by rw [← hu]; simpa using low
  have inU : u.inputs = s.inputs.sampled := by rw [← hu, State.ifDue_inputs (by simp)]; rfl
  have tick := runRows_ifDue (due := s.tickEnds) (s := u)
    (f := fun v => if s.tb.counter.toNat + 1 < s.tb.period.toNat then v.counterStep else v.naturalWrap) fun _ =>
    runRows_tick (s.tb.counter.toNat + 1 < s.tb.period.toNat) lowU
  have hb : (fun v : State => if s.belowLast then v.counterStep else v.naturalWrap) =
      fun v => if s.tb.counter.toNat + 1 < s.tb.period.toNat then v.counterStep else v.naturalWrap := by
    funext v; simp [State.belowLast]
  rw [runRows_append tick, hb]
  generalize hv : State.ifDue s.tickEnds _ u = v
  have lowV : v.resetLow = false := by rw [← hv, State.ifDue_resetLow, lowU]; split <;> simp
  have inV : v.inputs = s.inputs.sampled := by rw [← hv, State.ifDue_inputs, inU]; split <;> simp
  have sync := runRows_ifDue (due := s.inputs.syncIn.rises) (f := State.syncEdge) (s := v)
    fun hr => (runRows_cons (c := .syncInEdge) (s := v) (rest := []) rfl).trans (congrArg Host.Outcome.next
      (exec_edge_of_rises (line := v.inputs.syncIn) (f := State.syncEdge) lowV (by rw [inV]; rfl) hr))
  rw [runRows_append sync]
  generalize hw : State.ifDue s.inputs.syncIn.rises State.syncEdge v = w
  have lowW : w.resetLow = false := by rw [← hw, State.ifDue_resetLow, lowV]; simp
  have inW : w.inputs = s.inputs.sampled := by rw [← hw, State.ifDue_inputs, inV]; simp
  exact runRows_ifDue (due := s.inputs.commitIn.rises) (f := State.commitInEdge) (s := w)
    fun hr => (runRows_cons (c := .commitInEdge) (s := w) (rest := []) rfl).trans (congrArg Host.Outcome.next
      (exec_edge_of_rises (line := w.inputs.commitIn) (f := State.commitInEdge) lowW (by rw [inW]; rfl) hr))

/-- Settles O2: the period is the rows due in it, run from the counted dividers. -/
theorem emptyQueueStepIsOneRefclkPeriod : Obligations.EmptyQueueStepIsOneRefclkPeriod := by
  intro s hp
  have hstep : step s = .next s.refclkPeriod := by simp [step, hp]
  refine ⟨fun h => by rw [hstep]; exact congrArg _ (State.awake_of_low h _), fun h => ?_⟩
  dsimp only
  rw [hstep, ← refclkPeriod_rows h]
  simp only [EdgeInput.rises_iff, State.countPeriod, EdgeInputs.sampled, EdgeInput.sampled_eq]
  rfl

/-! ## RESET_N -/

/-- Settles O4: the starting state field by field, and the guards of the other rows. -/
theorem resetLineEdges : Obligations.ResetLineEdges := by
  refine ⟨⟨fun s => rfl, fun c s hl hw h1 h2 => ?_⟩, fun s => ⟨fun hl => ?_, fun hl => ?_⟩, fun c s hl hn hw hc => ?_⟩
  · obtain ⟨f, hf⟩ := exec_awake s hw h1 h2
    rw [hf, State.awake_of_low hl]
  · exact ⟨_, congrArg Host.Outcome.next (if_pos hl), rfl, rfl, rfl⟩
  · exact congrArg Host.Outcome.next (if_neg (by simp [hl]))
  · obtain ⟨f, hf⟩ := exec_hearing s hw hc
    rw [hf, State.hearing_of_waiting hl hn]
    rfl

/-! ## The µs clock and INIT -/

/-- Settles O6: both rows outside RESET_N, and the guard of INIT_COMPLETE. -/
theorem microsecondsCountAndEndInit : Obligations.MicrosecondsCountAndEndInit := by
  intro s h
  have row : exec .initComplete s = .next s.initComplete := congrArg _ (State.awake_of_high h _)
  refine ⟨congrArg _ (State.awake_of_high h _), fun hi hu => ?_, fun hn => ?_⟩
  · rw [row]; exact congrArg _ (if_pos ⟨hi, hu⟩)
  · rw [row]
    refine congrArg _ (if_neg fun ⟨hi, hu⟩ => ?_)
    cases hn with
    | inl hne => exact hne hi
    | inr hlt => exact absurd hu (by simp only [Config.initMicroseconds]; omega)

/-! ## Refusals -/

/-- Settles O8: of the outcomes of a heard frame, only refusals carry another code than ACCEPTED. -/
theorem refusedCommandChangesNothing : Obligations.RefusedCommandChangesNothing := by
  have reset : ∀ c : Instr, c.isFrame = true → c ≠ .resetNAssert ∧ c ≠ .resetNRelease := fun c hc =>
    ⟨by rintro rfl; exact (nomatch hc), by rintro rfl; exact (nomatch hc)⟩
  have replied : ∀ {u t : State} {code : ResultCode} {data : List Byte} {r : FrameResult}, t = u.reply code data →
      t.mgmt.result = some r → r = ⟨code, data⟩ := fun ht hr => by subst ht; exact (Option.some.inj hr).symm
  have deaf : ∀ {s : State}, s.takesFrames → ¬ s.mgmt.listening = false := fun hs h => by simp [hs.2] at h
  constructor
  · intro c s t r hs hc h hr hne
    cases exec_outcome h (reset c hc).1 (reset c hc).2 with
    | deaf hd => rw [hd hs] at hc; cases hc
    | unheard hl => exact absurd hl (deaf hs)
    | refused code => rw [replied rfl hr]; rfl
    | shown data => rw [replied rfl hr] at hne; exact absurd rfl hne
    | clash b v _ => rw [replied rfl hr]; rfl
    | occupied _ => rw [replied rfl hr]; rfl
    | row hn _ => rw [hn] at hc; cases hc
    | done _ data => rw [replied rfl hr] at hne; exact absurd rfl hne
  · intro c s t r hs hc h hr hne hclash hbusy
    cases exec_outcome h (reset c hc).1 (reset c hc).2 with
    | deaf hd => rw [hd hs] at hc; cases hc
    | unheard hl => exact absurd hl (deaf hs)
    | refused code => rw [replied rfl hr]
    | shown data => rw [replied rfl hr] at hne; exact absurd rfl hne
    | clash b v hb => rw [replied rfl hr] at hclash; exact absurd rfl (hclash b hb)
    | occupied hb => rw [replied rfl hr] at hbusy; exact absurd rfl (hbusy hb)
    | row hn _ => rw [hn] at hc; cases hc
    | done _ data => rw [replied rfl hr] at hne; exact absurd rfl hne

/-! ## The causes that stay -/

theorem Recording.keeps_enables {s t : State} (h : Recording s t) : t.ev.enables = s.ev.enables := by
  cases h with
  | elsewhere hev _ => rw [hev]
  | raise c _ => rfl
  | hit h =>
    obtain e | ⟨x, e, _⟩ | ⟨x, r, e, _⟩ := s.takeHit_cases h
    · rw [e]
    · rw [e]; simp
    · rw [e]; unfold State.handRecord; split <;> rfl
  | record r => unfold State.handRecord; split <;> rfl

theorem CaptureStep.keeps_enables {s t : State} (h : CaptureStep s t) : t.ev.enables = s.ev.enables := by
  cases h with
  | recording h => exact h.keeps_enables
  | channels hev _ _ _ => rw [hev]
  | refresh => rfl

theorem CaptureStep.keeps_cause {s t : State} (h : CaptureStep s t) (i : Fin 18) (hb : s.ev.causes.getLsbD i.val = true) :
    t.ev.causes.getLsbD i.val = true := by
  cases h with
  | recording h => exact Recordings.keeps_cause (.single h) i hb
  | channels hev _ _ _ => rw [hev]; exact hb
  | refresh x _ _ _ =>
    have hi := i.isLt
    rw [State.refreshReady_bit _ ⟨i.val, by omega⟩, if_neg (by dsimp only; omega)]
    exact hb

theorem CaptureSteps.keeps_causes {s t : State} (h : CaptureSteps s t) :
    t.ev.enables = s.ev.enables ∧
      ∀ i : Fin 18, s.ev.causes.getLsbD i.val = true → t.ev.causes.getLsbD i.val = true := by
  induction h with
  | refl => exact ⟨rfl, fun _ hb => hb⟩
  | tail _ hc ih => exact ⟨hc.keeps_enables.trans ih.1, fun i hb => hc.keeps_cause i (ih.2 i hb)⟩

theorem Effect.keeps_causes {c : Instr} {s t : State} (h : Effect s c t) :
    ((∀ b, c ≠ .clearCauses b) → ∀ i : Fin 18, s.ev.causes.getLsbD i.val = true → t.ev.causes.getLsbD i.val = true) ∧
      ((∀ b, c ≠ .setEnables b) → t.ev.enables = s.ev.enables) := by
  by_cases hc : ∃ b, c = .clearCauses b
  · obtain ⟨b, rfl⟩ := hc
    cases h with
    | clearCauses _ named => exact ⟨fun hc => absurd rfl (hc b), fun _ => rfl⟩
  by_cases he : ∃ b, c = .setEnables b
  · obtain ⟨b, rfl⟩ := he
    cases h with
    | setEnables _ set => exact ⟨fun _ _ hb => hb, fun he => absurd rfl (he b)⟩
  obtain ⟨enables, causes⟩ := (h.captureSteps (not_exists.mp hc) (not_exists.mp he)).keeps_causes
  exact ⟨fun _ => causes, fun _ => enables⟩

/-- Settles O54: outside CLEAR_CAUSES and SET_ENABLES every effect is made of recordings and re-evaluations. -/
theorem stickyCausesStay : Obligations.StickyCausesStay := by
  intro c s t h h1 h2
  cases exec_outcome h h1 h2 with
  | row _ e => exact e.keeps_causes
  | done e data => simpa using e.keeps_causes
  | _ => simp

end Sys2Proof.Machine

/-! PROOFS. Frames without a command, INIT, and the settings written (10.3, 10.4). -/

namespace Sys2Proof.Machine

/-! ## Frames without a command -/

theorem saturatingSucc_word (x : BitVec 16) : saturatingSucc x = if x.toNat = 65535 then 65535 else x + 1 := by
  have h : x = BitVec.allOnes 16 ↔ x.toNat = 65535 :=
    ⟨fun h => by rw [h]; rfl, fun h => BitVec.eq_of_toNat_eq (by rw [h]; rfl)⟩
  unfold saturatingSucc
  split
  · rename_i hx; rw [if_pos (h.mp hx), hx]; rfl
  · rename_i hx; rw [if_neg (mt h.mpr hx)]; rfl

/-- Settles O11: a heard partial frame, unknown byte or unknown item answers by its own guard alone. -/
theorem framesWithoutACommand : Obligations.FramesWithoutACommand := by
  intro s hs
  have heard := fun f => State.hearing_of_listening hs.1 hs.2 f
  refine ⟨congrArg _ (heard _), fun n hn => ?_, fun b hb => ?_, fun item index hi => ?_⟩
  · refine congrArg Host.Outcome.next ((heard _).trans ?_)
    rw [State.discardFrame, if_neg (by omega), saturatingSucc_word]
    rfl
  · have hn : ¬ namesCommand b = true := by
      rcases hb with rfl | hb
      · decide
      · simp only [namesCommand, decide_eq_true_eq]; omega
    exact (if_neg hn).trans (congrArg Host.Outcome.next (heard _))
  · refine (if_neg (by simp [hi])).trans (congrArg Host.Outcome.next ((heard _).trans ?_))
    by_cases h : s.op = .init
    · rw [State.unlessInit_of_init h, if_pos h]; rfl
    · rw [State.unlessInit_of_ne h, if_neg h]; rfl

/-! ## INIT -/

/-- A heard command with the INIT check first is answered BAD_STATE in INIT (R168). -/
theorem unlessInit_badState {s : State} (hs : s.takesFrames) (hi : s.op = .init) (n : Nat) (f : State → State) :
    s.hearing (State.unlessInit n f) = s.refuse .badState n := by
  rw [State.hearing_of_listening hs.1 hs.2, State.unlessInit_of_init hi]

/-! ## The commands that judge their argument before INIT (R168) -/

theorem argFour_zero : argFour 0 = some 0 := rfl

theorem setWidth_four_ne_zero {b : Byte} (h : b.toNat < 16) (h0 : b ≠ 0) : b.setWidth 4 ≠ 0 := by
  intro hz
  have := congrArg BitVec.toNat hz
  simp only [BitVec.toNat_setWidth, BitVec.toNat_ofNat, Nat.zero_mod, BitVec.ofNat_eq_ofNat] at this
  exact h0 (BitVec.eq_of_toNat_eq (by simp; omega))

section
variable {s : State} (hs : s.takesFrames) {b : Byte}
include hs

theorem exec_commitNow_of_bad_set (h : b = 0 ∨ 16 ≤ b.toNat) :
    exec (.commitNow b) s = .next (s.refuse .badArgument 2) := by
  simp only [exec, execCommitNow, State.hearing_of_listening hs.1 hs.2]
  rcases h with rfl | h
  · rw [argFour_zero]; rfl
  · rw [argFour_none h]

theorem exec_commitNow_of_set (h0 : b ≠ 0) (h : b.toNat < 16) : exec (.commitNow b) s = .next (
    if s.op = .active then (State.commitNow (members (b.setWidth 4)) s).1.reply .accepted
      (setOf (State.commitNow (members (b.setWidth 4)) s).2.1 ++ setOf (State.commitNow (members (b.setWidth 4)) s).2.2)
    else s.refuse .badState 2) := by
  simp only [exec, execCommitNow, State.hearing_of_listening hs.1 hs.2, argFour_spec h,
    if_neg (setWidth_four_ne_zero h h0)]

theorem exec_rearm_of_bad_set (h : b = 0 ∨ 16 ≤ b.toNat) : exec (.rearm b) s = .next (s.refuse .badArgument 1) := by
  simp only [exec, execRearm, State.hearing_of_listening hs.1 hs.2]
  rcases h with rfl | h
  · rw [argFour_zero]; rfl
  · rw [argFour_none h]

theorem exec_rearm_of_init (h0 : b ≠ 0) (h : b.toNat < 16) (hi : s.op = .init) :
    exec (.rearm b) s = .next (s.refuse .badState 1) := by
  simp only [exec, execRearm, State.hearing_of_listening hs.1 hs.2, argFour_spec h,
    if_neg (setWidth_four_ne_zero h h0), if_pos hi]

theorem exec_abortGroup_of_bad_number (h : 4 ≤ b.toNat) : exec (.abortGroup b) s = .next (s.refuse .badArgument 1) := by
  simp only [exec, execAbortGroup, State.hearing_of_listening hs.1 hs.2, argBelow_none h]

theorem exec_abortGroup_of_number {g : GroupId} (h : argBelow 4 b = some g) : exec (.abortGroup b) s = .next (
    if s.op = .init ∨ !(s.group g).enabled then s.refuse .badState 1
    else (s.abortOpen g).reply .accepted (byteNat (s.group g).openList.length)) := by
  simp only [exec, execAbortGroup, State.hearing_of_listening hs.1 hs.2, h]

end

/-- Settles O9: each frame's INIT check or argument check answers before its owner. -/
theorem initAnswersBadState : Obligations.InitAnswersBadState := by
  intro c s hs hi hc hw h1 h2
  have heard := fun f => State.hearing_of_listening hs.1 hs.2 f
  have refused := unlessInit_badState hs hi
  cases c
  case resetNAssert | resetNRelease | initComplete | usClockAdvance | counterStep | naturalWrap | syncInEdge |
      commitInEdge | holdLimitExpiry | drainBudgetExpiry | requestAccept | stagedWritePlacement | grant |
      memoryResponse | responseTaken | partialFrame => exact (nomatch hc)
  case readIdentity => exact absurd rfl h1
  case readStatus b => exact absurd rfl (h2 b)
  case unknownCommand b =>
    exact ⟨_, _, (if_neg (by simpa [Instr.wellFormed] using hw)).trans (congrArg Host.Outcome.next (heard _)), rfl, rfl⟩
  case putSettingUnknownItem item i =>
    exact ⟨_, _, (if_neg (by simpa [Instr.wellFormed] using hw)).trans (congrArg Host.Outcome.next (refused _ _)), rfl, rfl⟩
  case commitNow b =>
    by_cases hb : b = 0 ∨ 16 ≤ b.toNat
    · exact ⟨_, _, exec_commitNow_of_bad_set hs hb, rfl, (if_pos hb).symm⟩
    · obtain ⟨h0, hb'⟩ := not_or.mp hb
      refine ⟨_, _, (exec_commitNow_of_set hs h0 (by omega)).trans (congrArg _ (if_neg (by simp [hi]))), rfl, ?_⟩
      exact (if_neg hb).symm
  case abortGroup b =>
    by_cases hb : 4 ≤ b.toNat
    · exact ⟨_, _, exec_abortGroup_of_bad_number hs hb, rfl, (if_pos hb).symm⟩
    · have hg : argBelow 4 b = some ⟨b.toNat, by omega⟩ := argBelow_some.mpr rfl
      exact ⟨_, _, (exec_abortGroup_of_number hs hg).trans (congrArg _ (if_pos (.inl hi))), rfl, (if_neg hb).symm⟩
  case rearm b =>
    by_cases hb : b = 0 ∨ 16 ≤ b.toNat
    · exact ⟨_, _, exec_rearm_of_bad_set hs hb, rfl, (if_pos hb).symm⟩
    · obtain ⟨h0, hb'⟩ := not_or.mp hb
      exact ⟨_, _, exec_rearm_of_init hs h0 (by omega) hi, rfl, (if_neg hb).symm⟩
  all_goals exact ⟨_, _, congrArg Host.Outcome.next (refused _ _), rfl, rfl⟩

end Sys2Proof.Machine

/-! PROOFS. The settings written (10.4): the value read from the argument bytes, and what its owner does with it. -/

namespace Sys2Proof.Machine

section
variable {s : State} (hs : s.takesFrames) (hi : s.op ≠ .init) {α : Type} {arg : Option α} {v : α}
include hs hi

/-- A heard PUT_SETTING of a global item, its checks met. -/
theorem heard_putGlobal (ha : arg = some v) (owner : α → State → State) :
    s.hearing (State.putGlobal 0 arg owner) = owner v s := by
  rw [State.hearing_of_listening hs.1 hs.2, State.putGlobal_of_ok hi ha]

/-- A heard PUT_SETTING of a group or channel item, its checks met. -/
theorem heard_putIndexed (n : Fin 4) (ha : arg = some v) (owner : Fin 4 → α → State → State) :
    s.hearing (State.putIndexed (BitVec.ofNat 8 n.val) arg owner) = owner n v s := by
  rw [State.hearing_of_listening hs.1 hs.2, State.putIndexed_of_ok hi (argBelow_ofNat (by omega) n) ha]

end

/-! ## Global items -/

/-- Settles O17: each owner writes its field, and the threshold re-evaluates CAPTURE_READY. -/
theorem globalSettingsAreWritten : Obligations.GlobalSettingsAreWritten := by
  intro s v hs hi
  refine ⟨fun lo hi' => ?_, fun h => ?_, fun p hp => ?_, fun lo hi' => ?_⟩
  · exact congrArg _ (heard_putGlobal hs hi (argRange_of_le lo hi') _)
  · exact congrArg _ (heard_putGlobal hs hi (argSwitch_spec h) _)
  · subst hp
    exact congrArg _ (heard_putGlobal hs hi (argGrantPolicy_code p) _)
  · refine ⟨_, congrArg Host.Outcome.next (heard_putGlobal hs hi (argRange_of_le lo hi') _), rfl, rfl, rfl, fun i => ?_⟩
    exact State.refreshReady_bit (s.withCap { s.cap with threshold := v }) i

/-! ## The timebase's items -/

theorem State.evaluateSlotRange_group (s : State) (g : GroupId) :
    s.evaluateSlotRange.group g = (s.group g).judgedRange s.tb.period := by
  have : (s.withGroups (s.groups.map (Group.judgedRange s.tb.period))).group g = (s.group g).judgedRange s.tb.period := by
    simp [State.group]
  unfold State.evaluateSlotRange
  dsimp only
  split
  · rw [State.raise_group, this]
  · exact this

/-- A test of some group of a vector, as a test of some group number. -/
theorem groups_any {v : Vector Group 4} (f : Group → Bool) : v.any f = (List.finRange 4).any fun g => f v[g] := by
  rw [Bool.eq_iff_iff, Vector.any_eq_true, List.any_eq_true]
  constructor
  · rintro ⟨i, h, hf⟩; exact ⟨⟨i, h⟩, List.mem_finRange _, hf⟩
  · rintro ⟨g, _, hf⟩; exact ⟨g.val, g.isLt, hf⟩

theorem State.evaluateSlotRange_causes (s : State) : s.evaluateSlotRange.ev.causes =
    if (List.finRange 4).any fun g => (s.evaluateSlotRange.group g).outOfRange then s.ev.causes ||| BitVec.twoPow 19 15
    else s.ev.causes := by
  have any : (s.withGroups (s.groups.map (Group.judgedRange s.tb.period))).groups.any (·.outOfRange) =
      (List.finRange 4).any fun g => (s.evaluateSlotRange.group g).outOfRange := by
    rw [groups_any]
    congr 1
    funext g
    rw [State.evaluateSlotRange_group]
    simp [State.group]
  rw [← any]
  unfold State.evaluateSlotRange
  dsimp only
  split <;> rfl

/-- Judging the slot range changes the groups' indications and the causes, and nothing else (R127). -/
theorem State.evaluateSlotRange_eq (s : State) :
    s.evaluateSlotRange = { s with groups := s.evaluateSlotRange.groups, ev := s.evaluateSlotRange.ev } := by
  unfold State.evaluateSlotRange
  dsimp only
  split <;> rfl

section
variable {s : State} (hs : s.takesFrames) (hi : s.op ≠ .init) (hr : s.tb.running = false)
include hs hi hr

theorem exec_putSettingPeriod_of_stopped {v : BitVec 16} (hv : 2 ≤ v.toNat) : exec (.putSettingPeriod 0 v) s =
    .next (s.withTb { s.tb with period := v, pendingPeriod := none }).evaluateSlotRange.accept := by
  refine congrArg Host.Outcome.next ((heard_putGlobal hs hi (argPeriod_of_le hv) _).trans ?_)
  simp [State.always, State.writePeriod, hr]

theorem exec_putSettingSlotOffset_of_stopped (g : GroupId) (v : BitVec 16) :
    exec (.putSettingSlotOffset (BitVec.ofNat 8 g.val) v) s =
    .next (s.withGroup g { s.group g with slotOffset := v, pendingOffset := none }).evaluateSlotRange.accept := by
  refine congrArg Host.Outcome.next ((heard_putIndexed hs hi g rfl _).trans ?_)
  simp [State.always, State.writeSlotOffset, hr]

end

/-- Settles O18: the owner's branch on the run state, and the judging of the slot range. -/
theorem timebaseSettingsPendOrApply : Obligations.TimebaseSettingsPendOrApply := by
  intro s hs hi
  refine ⟨fun v => ?_, fun hr v => ⟨fun hv => ?_, fun g => ?_⟩, fun hr v => ⟨fun hv => ?_, fun g => ?_⟩,
    fun hr g v t ht => ?_⟩
  · refine congrArg Host.Outcome.next ((heard_putGlobal hs hi rfl _).trans ?_)
    simp only [State.always, Timebase.writePrescale]
    split <;> rfl
  · refine congrArg Host.Outcome.next ((heard_putGlobal hs hi (argPeriod_of_le hv) _).trans ?_)
    simp only [State.always, State.writePeriod, if_pos hr]
    rfl
  · refine congrArg Host.Outcome.next ((heard_putIndexed hs hi g rfl _).trans ?_)
    simp only [State.always, State.writeSlotOffset, if_pos hr]
    rfl
  · generalize hu : s.withTb { s.tb with period := v, pendingPeriod := none } = u
    have hgroup : ∀ h, u.evaluateSlotRange.group h =
        { s.group h with outOfRange := decide (v.toNat ≤ (s.group h).slotOffset.toNat) } := fun h => by
      rw [State.evaluateSlotRange_group, ← hu]; rfl
    refine ⟨u.evaluateSlotRange.accept, hu ▸ exec_putSettingPeriod_of_stopped hs hi hr hv, ?_, rfl, hgroup, ?_⟩
    · calc u.evaluateSlotRange.accept
          = State.accept { u with groups := u.evaluateSlotRange.groups, ev := u.evaluateSlotRange.ev } :=
            congrArg _ (State.evaluateSlotRange_eq u)
        _ = _ := by subst hu; simp [State.accept, State.reply, State.withMgmt]
    · refine (State.evaluateSlotRange_causes u).trans ?_
      simp only [hgroup]
      rw [← hu]; rfl
  · generalize hu : s.withGroup g { s.group g with slotOffset := v, pendingOffset := none } = u
    refine ⟨u.evaluateSlotRange.accept, hu ▸ exec_putSettingSlotOffset_of_stopped hs hi hr g v, ?_, rfl, fun h => ?_⟩
    · calc u.evaluateSlotRange.accept
          = State.accept { u with groups := u.evaluateSlotRange.groups, ev := u.evaluateSlotRange.ev } :=
            congrArg _ (State.evaluateSlotRange_eq u)
        _ = _ := by subst hu; simp [State.accept, State.reply, State.withMgmt]
    · refine (State.evaluateSlotRange_group u h).trans ?_
      subst hu
      by_cases e : h = g
      · subst e; rw [State.group_withGroup_same]; simp [Group.judgedRange]
      · rw [State.group_withGroup_ne _ (Ne.symm e)]; simp [Group.judgedRange, e]
  · rw [exec_putSettingSlotOffset_of_stopped hs hi hr g v] at ht
    cases ht
    refine (State.evaluateSlotRange_causes _).trans ?_
    rfl

end Sys2Proof.Machine

/-! PROOFS. The group, channel and window settings written (R28 to R30, R86, R88, R135, R136). -/

namespace Sys2Proof.Machine

/-! ## Group items -/

/-- A group replaced by itself. -/
theorem State.withGroup_self (s : State) (g : GroupId) : s.withGroup g (s.group g) = s := by
  simp [State.withGroup, State.withGroups, State.group]

theorem Group.isQuiet_iff (g : Group) : g.isQuiet = true ↔ g.openList = [] ∧ g.drainList = [] := by
  simp [Group.isQuiet, List.isEmpty_iff]

/-- What a setting of a quiet group answers (R29). -/
theorem State.setQuietGroup_eq {α : Type} (f : α → Group → Group) (g : GroupId) (v : α) (s : State) :
    s.setQuietGroup f g v = if (s.group g).openList = [] ∧ (s.group g).drainList = [] then s.setGroup f g v
      else s.refuse .busy 0 :=
  if_congr (Group.isQuiet_iff _) rfl rfl

theorem State.names_any_iff (s : State) (g : GroupId) :
    s.windows.any (·.names g) = true ↔ ∃ w : WindowId, (s.window w).names g = true := by
  rw [Vector.any_eq_true]
  constructor
  · rintro ⟨i, h, hn⟩; exact ⟨⟨i, h⟩, hn⟩
  · rintro ⟨w, hn⟩; exact ⟨w.val, w.isLt, hn⟩

section
variable {s : State} (g : GroupId)

theorem State.writeGroupEnabled_on :
    s.writeGroupEnabled g true = (s.withGroup g { s.group g with enabled := true }).accept := rfl

/-- A group that is off, or that no enabled window names, is turned off (R28). -/
theorem State.writeGroupEnabled_off (h : (s.group g).enabled = false ∨ ∀ w : WindowId, (s.window w).names g = false) :
    s.writeGroupEnabled g false = (s.withGroup g { s.group g with enabled := false }).accept := by
  unfold State.writeGroupEnabled
  by_cases he : (s.group g).enabled = false
  · have same : { s.group g with enabled := false } = s.group g := by rw [← he]
    rw [same, State.withGroup_self]
    simp [he]
  · have hn : ¬ s.windows.any (·.names g) = true := by
      rw [State.names_any_iff]
      rintro ⟨w, hw⟩
      exact absurd (h.resolve_left he w) (by simp [hw])
    rw [if_neg (by decide), if_neg (by simpa using he), if_neg hn]
    rfl

theorem State.writeGroupEnabled_named (he : (s.group g).enabled = true) (h : ∃ w : WindowId, (s.window w).names g = true) :
    s.writeGroupEnabled g false = s.refuse .badState 0 := by
  unfold State.writeGroupEnabled
  rw [if_neg (by decide), if_neg (by simp [he]), if_pos ((State.names_any_iff s g).mpr h)]

end

/-- Settles O19: each group item's argument is read, and its owner writes it or refuses. -/
theorem groupSettingsAreWritten : Obligations.GroupSettingsAreWritten := by
  refine ⟨fun s g hs hi => ⟨fun x => ?_, fun v hv => ?_, fun v hv => ?_, fun v hv => ?_⟩,
    fun s g hs hi => ⟨fun x => ?_, fun x => ?_, fun v lo hi' => ?_⟩, fun s g hs hi => ⟨?_, fun h => ?_, fun he hn => ?_⟩⟩
  · exact congrArg _ (heard_putIndexed hs hi g (argTrigger_code x) _)
  · exact congrArg _ (heard_putIndexed hs hi g (argMicroseconds_spec hv) _)
  · exact congrArg _ (heard_putIndexed hs hi g (argMicroseconds_spec hv) _)
  · exact congrArg _ (heard_putIndexed hs hi g (argSwitch_spec hv) _)
  · exact congrArg _ ((heard_putIndexed hs hi g (argMode_code x) _).trans (State.setQuietGroup_eq _ g _ s))
  · exact congrArg _ ((heard_putIndexed hs hi g (argPolicy_code x) _).trans (State.setQuietGroup_eq _ g _ s))
  · exact congrArg _ ((heard_putIndexed hs hi g (argRange_of_le lo hi') _).trans (State.setQuietGroup_eq _ g _ s))
  · exact congrArg _ (heard_putIndexed hs hi g (argSwitch_spec (v := 1) (by decide)) _)
  · exact congrArg _ ((heard_putIndexed hs hi g (argSwitch_spec (v := 0) (by decide)) _).trans
      (State.writeGroupEnabled_off g h))
  · exact congrArg _ ((heard_putIndexed hs hi g (argSwitch_spec (v := 0) (by decide)) _).trans
      (State.writeGroupEnabled_named g he hn))

/-! ## Channel items -/

theorem Channel.writeEnabled_on (ch : Channel) : ch.writeEnabled true =
    if ch.state = .off then { ch with state := .armed, prescaleCount := 0, skipCount := 0 } else ch := by
  unfold Channel.writeEnabled
  split <;> simp_all

theorem Channel.writeEnabled_off (ch : Channel) : ch.writeEnabled false = { ch with state := .off } := rfl

theorem Channel.writeGate_off (ch : Channel) : ch.writeGate false =
    if ch.state = .gated then { ch with gate := false, state := .armed, prescaleCount := 0 }
    else { ch with gate := false } := rfl

/-- Settles O20: each channel item's argument is read and written, and three of them do more to the channel. -/
theorem channelSettingsAreWritten : Obligations.ChannelSettingsAreWritten := by
  have on : argSwitch 1 = some true := rfl
  have off : argSwitch 0 = some false := rfl
  refine ⟨fun s c hs hi => ⟨?_, ?_⟩,
    fun s c hs hi => ⟨fun x => ?_, fun v => ?_, ?_, ?_, fun v hv => ?_, fun value mask => ?_, fun v hv => ?_⟩⟩
  · refine congrArg Host.Outcome.next ((heard_putIndexed hs hi c on _).trans ?_)
    rw [State.setChannel, Channel.writeEnabled_on]; rfl
  · exact congrArg _ (heard_putIndexed hs hi c off _)
  · exact congrArg _ (heard_putIndexed hs hi c (argDirection_code x) _)
  · exact congrArg _ (heard_putIndexed hs hi c rfl _)
  · exact congrArg _ (heard_putIndexed hs hi c on _)
  · refine congrArg Host.Outcome.next ((heard_putIndexed hs hi c off _).trans ?_)
    rw [State.setChannel, Channel.writeGate_off]; rfl
  · exact congrArg _ (heard_putIndexed hs hi c (argSwitch_spec hv) _)
  · exact congrArg _ (heard_putIndexed hs hi c rfl _)
  · exact congrArg _ (heard_putIndexed hs hi c (argSwitch_spec hv) _)

/-! ## PUT_WINDOW -/

theorem argPage_of_ok {a : BitVec 40} (h : a.toNat < 2 ^ 36) (hp : a.toNat % 4096 = 0) : argPage a = some (a.setWidth 36) := by
  have hn : (a.setWidth 36).toNat = a.toNat := by rw [BitVec.toNat_setWidth]; omega
  simp only [argPage, argAddress, if_pos h, hn, Config.pageBytes, if_pos hp]

theorem argPage_isSome (a : BitVec 40) : (argPage a).isSome = true ↔ a.toNat < 2 ^ 36 ∧ a.toNat % 4096 = 0 := by
  constructor
  · intro h
    obtain ⟨x, hx⟩ := Option.isSome_iff_exists.mp h
    obtain ⟨hm, hn⟩ := argPage_spec hx
    have := x.isLt
    omega
  · rintro ⟨h, hp⟩; rw [argPage_of_ok h hp]; rfl

theorem argPorts_isSome (b : Byte) : (argPorts b).isSome = true ↔ 1 ≤ b.toNat ∧ b.toNat ≤ 3 := by
  unfold argPorts; split <;> simp_all

/-- A class argument, its group and view read only for STAGED (R86). -/
theorem argClass_staged {group view : Byte} {g : GroupId} {v : ReadView} (hg : g.val = group.toNat) (hv : v.code = view) :
    argClass 1 group view = some (.staged g v) := by
  have : argBelow 4 group = some g := argBelow_some.mpr hg
  subst hv
  cases v <;> simp [argClass, this, ReadView.code]

theorem argClass_isSome (cls group view : Byte) : (argClass cls group view).isSome = true ↔
    cls = 0 ∨ cls = 1 ∧ group.toNat < 4 ∧ view.toNat ≤ 1 := by
  unfold argClass
  split
  · rename_i h; simp [BitVec.eq_of_toNat_eq (y := 0) h]
  · rename_i h
    have hc : cls = 1 := BitVec.eq_of_toNat_eq h
    subst hc
    split
    · rename_i g hg hv; have := argBelow_some.mp hg; simp; omega
    · rename_i g hg hv; have := argBelow_some.mp hg; simp; omega
    · rename_i h0 h1
      by_cases hg : group.toNat < 4
      · have hs : argBelow 4 group = some ⟨group.toNat, hg⟩ := argBelow_some.mpr rfl
        have n0 : view.toNat ≠ 0 := h0 _ hs
        have n1 : view.toNat ≠ 1 := h1 _ hs
        simp; omega
      · simp [hg]
  · rename_i h0 h1
    refine iff_of_false (by simp) ?_
    rintro (rfl | ⟨rfl, -⟩)
    · exact h0 rfl
    · exact h1 rfl

theorem argChannel_some {channel : Byte} {c : ChannelId} (h : c.val = channel.toNat) :
    argChannel 1 channel = some (some c) := by
  simp [argChannel, argBelow_some.mpr h]

theorem argChannel_isSome (present channel : Byte) : (argChannel present channel).isSome = true ↔
    present = 0 ∨ present = 1 ∧ channel.toNat < 4 := by
  unfold argChannel
  split
  · rename_i h; simp [BitVec.eq_of_toNat_eq (y := 0) h]
  · rename_i h
    have hc : present = 1 := BitVec.eq_of_toNat_eq h
    subst hc
    by_cases hg : channel.toNat < 4
    · have hs : argBelow 4 channel = some ⟨channel.toNat, hg⟩ := argBelow_some.mpr rfl
      simp [hs, hg]
    · simp [argBelow_none (not_lt.mp hg), hg]
  · rename_i h0 h1
    refine iff_of_false (by simp) ?_
    rintro (rfl | ⟨rfl, -⟩)
    · exact h0 rfl
    · exact h1 rfl

section
variable {window : Byte} {base limit : BitVec 40} {ps cls g v cp cc : Byte}

/-- The fields of a PUT_WINDOW, each read from its own arguments, with the limit not below the base (R86). -/
theorem windowFields_eq_some {b l : Address} {ports : PortSet} {c : WindowClass} {ch : Option ChannelId} :
    windowFields base limit ps cls g v cp cc = some (b, l, ports, c, ch) ↔
      argPage base = some b ∧ argPage limit = some l ∧ argPorts ps = some ports ∧ argClass cls g v = some c ∧
        argChannel cp cc = some ch ∧ b.toNat ≤ l.toNat := by
  unfold windowFields
  split
  · rename_i hb hl hp hc hch
    rw [hb, hl, hp, hc, hch]
    split
    · rename_i hle; simp only [Option.some.injEq, Prod.mk.injEq]; aesop
    · rename_i hle; simp only [Option.some.injEq, reduceCtorEq, false_iff]
      rintro ⟨rfl, rfl, -, -, -, h⟩
      exact hle h
  · rename_i hn
    refine iff_of_false (by simp) ?_
    rintro ⟨hb, hl, hp, hc, hch, -⟩
    exact hn _ _ _ _ _ hb hl hp hc hch

theorem windowArgumentsOk_iff : windowArgumentsOk window base limit ps cls g v cp cc ↔
    (argBelow 8 window).isSome = true ∧ (windowFields base limit ps cls g v cp cc).isSome = true := by
  have number : (argBelow 8 window).isSome = true ↔ window.toNat < 8 := by unfold argBelow; split <;> simp_all
  rw [number, Option.isSome_iff_exists]
  constructor
  · rintro ⟨hw, hb, hl, hbp, hlp, hle, hp1, hp3, hc, hch⟩
    obtain ⟨ports, hports⟩ := Option.isSome_iff_exists.mp ((argPorts_isSome ps).mpr ⟨hp1, hp3⟩)
    obtain ⟨c, hc⟩ := Option.isSome_iff_exists.mp ((argClass_isSome cls g v).mpr hc)
    obtain ⟨ch, hch⟩ := Option.isSome_iff_exists.mp ((argChannel_isSome cp cc).mpr hch)
    refine ⟨hw, ⟨_, _, _, _, _⟩, windowFields_eq_some.mpr
      ⟨argPage_of_ok hb hbp, argPage_of_ok hl hlp, hports, hc, hch, ?_⟩⟩
    simp only [BitVec.toNat_setWidth]
    omega
  · rintro ⟨hw, ⟨b, l, ports, c, ch⟩, hf⟩
    obtain ⟨hb, hl, hp, hc, hch, hle⟩ := windowFields_eq_some.mp hf
    obtain ⟨hb36, hbp⟩ := (argPage_isSome base).mp (by rw [hb]; rfl)
    obtain ⟨hl36, hlp⟩ := (argPage_isSome limit).mp (by rw [hl]; rfl)
    obtain ⟨hp1, hp3⟩ := (argPorts_isSome ps).mp (by rw [hp]; rfl)
    refine ⟨hw, hb36, hl36, hbp, hlp, ?_, hp1, hp3, (argClass_isSome cls g v).mp (by rw [hc]; rfl),
      (argChannel_isSome cp cc).mp (by rw [hch]; rfl)⟩
    rw [← (argPage_spec hb).2, ← (argPage_spec hl).2]
    exact hle

section
variable {s : State} (hs : s.takesFrames) (hi : s.op ≠ .init)
include hs hi

theorem exec_putWindow_of_bad (h : ¬ windowArgumentsOk window base limit ps cls g v cp cc) :
    exec (.putWindow window base limit ps cls g v cp cc) s = .next (s.refuse .badArgument 0) := by
  refine congrArg Host.Outcome.next ((State.hearing_of_listening hs.1 hs.2 _).trans ?_)
  rw [State.unlessInit_of_ne hi]
  split
  · rename_i hw hf
    exact absurd (windowArgumentsOk_iff.mpr ⟨by rw [hw]; rfl, by rw [hf]; rfl⟩) h
  · rfl

theorem exec_putWindow_of_ok {w : WindowId} (hw : argBelow 8 window = some w) {b l : Address} {ports : PortSet}
    {c : WindowClass} {ch : Option ChannelId} (hf : windowFields base limit ps cls g v cp cc = some (b, l, ports, c, ch)) :
    exec (.putWindow window base limit ps cls g v cp cc) s = .next (if (s.window w).enabled then s.refuse .badState 0
      else (s.withWindow w { s.window w with base := b, limit := l, ports := ports, cls := c, channel := ch }).accept) := by
  refine congrArg Host.Outcome.next ((State.hearing_of_listening hs.1 hs.2 _).trans ?_)
  rw [State.unlessInit_of_ne hi, hw, hf]

end

/-- Settles O22: the argument checks are the model's readers, which give the fields their values. -/
theorem putWindowReplacesTheFields : Obligations.PutWindowReplacesTheFields := by
  intro s window base limit ps cls g v cp cc hs hi
  refine ⟨fun h => exec_putWindow_of_bad hs hi h, fun ok w hw => ?_⟩
  obtain ⟨-, hsome⟩ := windowArgumentsOk_iff.mp ok
  obtain ⟨⟨b, l, ports, c, ch⟩, hf⟩ := Option.isSome_iff_exists.mp hsome
  have row := exec_putWindow_of_ok hs hi (argBelow_some.mpr hw) hf
  obtain ⟨hb, hl, hp, hc, hch, hle⟩ := windowFields_eq_some.mp hf
  refine ⟨fun he => by rw [row, if_pos he]; rfl, fun he => ⟨_, row.trans (congrArg _ (if_neg (by simp [he]))), rfl, ?_⟩⟩
  have written : ∀ x : Window, (s.withWindow w x).accept.window w = x := fun x => by simp [State.accept, State.reply]
  rw [written]
  refine ⟨fun x hx => ?_, he, rfl, (argPage_spec hb).2, (argPage_spec hl).2, (argPorts_spec hp).2, ?_, ?_, ?_, ?_⟩
  · simp [State.accept, State.reply, State.window_withWindow_ne _ (Ne.symm hx)]
  · rintro rfl
    exact (Option.some.inj hc).symm
  · rintro rfl
    obtain ⟨hg, hv⟩ := ((argClass_isSome 1 g v).mp (by rw [hc]; rfl)).resolve_left (by decide) |>.2
    have view : ∃ x : ReadView, x.code = v := by
      rcases Nat.le_one_iff_eq_zero_or_eq_one.mp hv with h | h
      · exact ⟨.committed, BitVec.eq_of_toNat_eq h.symm⟩
      · exact ⟨.pending, BitVec.eq_of_toNat_eq h.symm⟩
    obtain ⟨x, hx⟩ := view
    refine ⟨⟨g.toNat, hg⟩, x, rfl, hx, ?_⟩
    rw [argClass_staged (g := ⟨g.toNat, hg⟩) rfl hx] at hc
    exact (Option.some.inj hc).symm
  · rintro rfl
    exact (Option.some.inj hch).symm
  · rintro rfl
    have hcc := ((argChannel_isSome 1 cc).mp (by rw [hch]; rfl)).resolve_left (by decide) |>.2
    refine ⟨⟨cc.toNat, hcc⟩, rfl, ?_⟩
    rw [argChannel_some (c := ⟨cc.toNat, hcc⟩) rfl] at hch
    exact (Option.some.inj hch).symm

end

/-! ## ENABLE_WINDOW -/

section
variable {s : State} (hs : s.takesFrames) (hi : s.op ≠ .init) (w : WindowId)
include hs hi

theorem exec_enableWindow_of_number : exec (.enableWindow (BitVec.ofNat 8 w.val)) s = .next (
    if (s.window w).enabled then s.reply .accepted (conflictBytes none)
    else match s.conflictingWindow w with
      | some v => s.reply .badArgument (conflictBytes (some v))
      | none => if s.groupMissing w then s.refuse .badState 2
        else (s.withWindow w { s.window w with enabled := true }).reply .accepted (conflictBytes none)) := by
  refine congrArg Host.Outcome.next ((State.hearing_of_listening hs.1 hs.2 _).trans ?_)
  rw [State.unlessInit_of_ne hi, argBelow_ofNat (by decide)] <;> rfl

theorem exec_enableWindow_of_conflict (he : (s.window w).enabled = false) {v : WindowId}
    (hv : s.conflictingWindow w = some v) :
    exec (.enableWindow (BitVec.ofNat 8 w.val)) s = .next (s.reply .badArgument (conflictBytes (some v))) := by
  rw [exec_enableWindow_of_number hs hi, if_neg (by simp [he]), hv]

theorem exec_enableWindow_of_clear (he : (s.window w).enabled = false) (hv : s.conflictingWindow w = none) :
    exec (.enableWindow (BitVec.ofNat 8 w.val)) s = .next (if s.groupMissing w then s.refuse .badState 2
        else (s.withWindow w { s.window w with enabled := true }).reply .accepted (conflictBytes none)) := by
  rw [exec_enableWindow_of_number hs hi, if_neg (by simp [he]), hv]

end

/-- The first number of a test in ascending order. -/
theorem finRange_find_some {n : Nat} {p : Fin n → Bool} {v : Fin n} (h : p v = true) (first : ∀ x, x < v → p x = false) :
    (List.finRange n).find? p = some v := by
  rw [List.find?_eq_some_iff_getElem]
  refine ⟨h, v.val, by simp, by simp, fun j hj => ?_⟩
  simpa using first ⟨j, by omega⟩ hj

theorem State.groupMissing_iff (s : State) (w : WindowId) : s.groupMissing w = true ↔
    ∃ (g : GroupId) (view : ReadView), (s.window w).cls = .staged g view ∧ (s.group g).enabled = false := by
  unfold State.groupMissing
  split
  · rename_i g view h; simp [h]
  · rename_i h; simp [h]

/-- Settles O23: the checks of ENABLE_WINDOW in their order, the first conflict being the lowest. -/
theorem enableWindowChecksOverlap : Obligations.EnableWindowChecksOverlap := by
  refine ⟨fun s b hs hi hb => ?_, fun s w hs hi => ?_⟩
  · refine congrArg Host.Outcome.next ((State.hearing_of_listening hs.1 hs.2 _).trans ?_)
    rw [State.unlessInit_of_ne hi, argBelow_none hb]
    rfl
  · refine ⟨fun he => ?_, fun he => ⟨fun v hv first => ?_, fun clear => ⟨fun missing => ?_, fun named => ?_⟩⟩⟩
    · rw [exec_enableWindow_of_number hs hi, if_pos he]; rfl
    · exact exec_enableWindow_of_conflict hs hi w he (finRange_find_some hv first)
    · rw [exec_enableWindow_of_clear hs hi w he (List.find?_eq_none.mpr fun v _ => by simpa using clear v),
        if_pos ((s.groupMissing_iff w).mpr missing)]
      rfl
    · rw [exec_enableWindow_of_clear hs hi w he (List.find?_eq_none.mpr fun v _ => by simpa using clear v), if_neg]
      · rfl
      · rw [s.groupMissing_iff w]
        rintro ⟨g, view, hc, hg⟩
        exact absurd (named g view hc) (by simp [hg])

end Sys2Proof.Machine

/-! PROOFS. The µs clock through a period of REFCLK and the length of INIT; the bridge's two commands, STOP_TIMEBASE and
REARM; classification. -/

namespace Sys2Proof.Machine

open Sys2Proof

/-! ## INIT and the µs clock -/

/-- What INIT is timed by: the operating state, the µs clock with its divider, the length of the present microsecond and the
reference frequency. -/
def State.initClock (s : State) : OperatingState × BitVec 32 × Byte × Byte × Byte :=
  (s.op, s.tb.usClock, s.tb.usDivider, s.tb.usLength, s.tb.refFreq)

theorem State.wrap_initClock (s : State) : s.wrap.initClock = s.initClock := by
  simp [State.initClock, State.wrap_tb, Timebase.wrapped]

theorem State.counterStep_initClock (s : State) : s.counterStep.initClock = s.initClock := by
  unfold State.counterStep
  split <;> simp [State.initClock]

theorem State.naturalWrap_initClock (s : State) : s.naturalWrap.initClock = s.initClock := by
  unfold State.naturalWrap
  split
  · exact s.wrap_initClock
  · rfl

theorem State.syncEdge_initClock (s : State) : s.syncEdge.initClock = s.initClock := by
  unfold State.syncEdge
  split
  · split
    · rw [State.wrap_initClock]; simp [State.initClock]
    · rw [State.wrap_initClock]; simp [State.initClock]
  · rfl

theorem State.commitInEdge_initClock (s : State) : s.commitInEdge.initClock = s.initClock := by simp [State.initClock]

theorem State.dueExpiries_initClock (s : State) : s.dueExpiries.initClock = s.initClock := by
  simp [State.initClock, State.dueExpiries, List.finRange_succ]

theorem State.ifDue_initClock {f : State → State} (h : ∀ s : State, (f s).initClock = s.initClock) (due : Bool) (s : State) :
    (s.ifDue due f).initClock = s.initClock := by
  unfold State.ifDue
  split
  · exact h s
  · rfl

/-- A period of REFCLK times INIT by its dividers, its µs clock and INIT_COMPLETE alone; the tick and the edges leave that. -/
theorem State.refclkPeriod_initClock {s : State} (h : s.resetLow = false) :
    s.refclkPeriod.initClock = if s.microsecondEnds = true then s.countPeriod.usAdvance.initComplete.initClock
      else s.countPeriod.initClock := by
  have tick : ∀ u : State, (if s.belowLast = true then u.counterStep else u.naturalWrap).initClock = u.initClock := fun u => by
    split
    · exact u.counterStep_initClock
    · exact u.naturalWrap_initClock
  unfold State.refclkPeriod
  rw [State.awake_of_high h, State.ifDue_initClock State.commitInEdge_initClock,
    State.ifDue_initClock State.syncEdge_initClock, State.ifDue_initClock tick]
  unfold State.ifDue
  split
  · exact State.dueExpiries_initClock _
  · rfl

/-- Settles O7: the 50 periods of a microsecond counted one by one, and INIT_COMPLETE where the clock reads 20. -/
theorem initEndsAtTwentyMicroseconds : Obligations.InitEndsAtTwentyMicroseconds := by
  intro s hp hr hi hl hf hd hc
  refine ⟨s.refclkPeriod, by simp [step, hp], ?_⟩
  have clock := State.refclkPeriod_initClock hr
  have ends : s.microsecondEnds = decide (50 ≤ s.tb.usDivider.toNat + 1) := by simp [State.microsecondEnds, hl]
  by_cases he : 50 ≤ s.tb.usDivider.toNat + 1
  · have hm : s.microsecondEnds = true := by simp [ends, he]
    have hu : (s.tb.usClock + 1).toNat = s.tb.usClock.toNat + 1 := by
      rw [BitVec.toNat_add]; simp; omega
    rw [if_pos hm] at clock
    simp only [State.initClock, State.initComplete_frame, Prod.mk.injEq] at clock
    obtain ⟨hop, hcl, hdv, hln, hrf⟩ := clock
    have hcl' : s.refclkPeriod.tb.usClock = s.tb.usClock + 1 := by simpa [State.countPeriod, State.usAdvance] using hcl
    have hdv' : s.refclkPeriod.tb.usDivider = 0 := by simpa [State.countPeriod, State.usAdvance, hm] using hdv
    have hln' : s.refclkPeriod.tb.usLength = 50 := by simpa [State.countPeriod, State.usAdvance, hf] using hln
    have hrf' : s.refclkPeriod.tb.refFreq = 50 := by simpa [State.countPeriod, State.usAdvance, hf] using hrf
    refine ⟨by rw [hcl', hdv', hu]; simp; omega, by rw [hdv']; decide, hln', hrf', ?_⟩
    rw [hop, hcl', hu]
    unfold State.initComplete
    have h20 : (s.countPeriod.usAdvance.op = .init ∧ Config.initMicroseconds ≤ s.countPeriod.usAdvance.tb.usClock.toNat) ↔
        s.tb.usClock.toNat + 1 = 20 := by
      simp only [State.countPeriod, State.usAdvance, State.withTb_tb, State.withTb_op, State.withInputs_tb,
        State.withInputs_op, hi, true_and, hu, Config.initMicroseconds]
      omega
    by_cases h : s.tb.usClock.toNat + 1 = 20
    · rw [if_pos (h20.mpr h), if_pos h]; rfl
    · rw [if_neg (fun k => h (h20.mp k)), if_neg h]; simpa [State.countPeriod, State.usAdvance] using hi
  · have hm : s.microsecondEnds = false := by simp [ends, he]
    have hu : (s.tb.usDivider + 1).toNat = s.tb.usDivider.toNat + 1 := by
      rw [BitVec.toNat_add]; simp; omega
    rw [if_neg (by simp [hm])] at clock
    simp only [State.initClock, Prod.mk.injEq] at clock
    obtain ⟨hop, hcl, hdv, hln, hrf⟩ := clock
    have hcl' : s.refclkPeriod.tb.usClock = s.tb.usClock := by simpa [State.countPeriod] using hcl
    have hdv' : s.refclkPeriod.tb.usDivider = s.tb.usDivider + 1 := by simpa [State.countPeriod, hm] using hdv
    have hln' : s.refclkPeriod.tb.usLength = 50 := by simpa [State.countPeriod, hl] using hln
    have hrf' : s.refclkPeriod.tb.refFreq = 50 := by simpa [State.countPeriod, hf] using hrf
    refine ⟨by rw [hcl', hdv', hu]; omega, by rw [hdv', hu]; omega, hln', hrf', ?_⟩
    rw [hop, hcl', if_neg (by omega)]
    simpa [State.countPeriod] using hi

/-! ## The bridge, STOP_TIMEBASE and REARM -/

theorem conditionByte_three (a b c : Bool) : conditionByte [a, b, c] =
    [BitVec.ofNat 8 ((if a then 1 else 0) + (if b then 2 else 0) + (if c then 4 else 0))] := by
  cases a <;> cases b <;> cases c <;> rfl

/-- Settles O47, branch by branch of the two meanings. -/
theorem bridgeIsEnabledAndDisabled : Obligations.BridgeIsEnabledAndDisabled := by
  intro s hs
  have enable : exec .enableBridge s = .next (s.unlessInit 0 fun s => (s.withOp .active).accept) :=
    congrArg Host.Outcome.next (State.hearing_of_listening hs.1 hs.2 _)
  have disable : exec .disableBridge s = .next (s.unlessInit 1 fun s =>
      if s.op = .active ∧ s.busyConditions.any id then s.reply .busy (conditionByte s.busyConditions)
      else (s.withOp .bypass).reply .accepted [0]) :=
    congrArg Host.Outcome.next (State.hearing_of_listening hs.1 hs.2 _)
  refine ⟨fun hi => ⟨?_, ?_⟩, fun hi => ?_, fun h => ?_, fun ha h => ?_⟩
  · rw [enable, State.unlessInit_of_init hi]; rfl
  · rw [disable, State.unlessInit_of_init hi]; rfl
  · rw [enable, State.unlessInit_of_ne hi]; rfl
  · have hi : s.op ≠ .init := by
      rcases h with h | ⟨h, -⟩ <;> rw [h] <;> decide
    rw [disable, State.unlessInit_of_ne hi, if_neg]
    · rfl
    · rintro ⟨ha, hb⟩
      rcases h with h | ⟨-, h1, h2, h3⟩
      · rw [h] at ha; cases ha
      · simp only [State.busyConditions, List.any_cons, List.any_nil, id, Bool.or_false] at hb
        rw [h1, h2, h3] at hb
        cases hb
  · rw [disable, State.unlessInit_of_ne (by rw [ha]; decide), if_pos]
    · rw [State.busyConditions, conditionByte_three]
      cases s.holds <;> rfl
    · refine ⟨ha, ?_⟩
      simp only [State.busyConditions, List.any_cons, List.any_nil, id, Bool.or_false]
      rcases h with h | h | h
      · rw [h]; rfl
      · have : s.holds.isEmpty = false := by simpa using h
        simp [this]
      · rw [h]; simp

/-- A set of four written bit by bit (R169). -/
def fourBits (f : Fin 4 → Bool) : Byte :=
  BitVec.ofNat 8 ((if f 0 then 1 else 0) + (if f 1 then 2 else 0) + (if f 2 then 4 else 0) + (if f 3 then 8 else 0))

theorem setByte_four (f : Fin 4 → Bool) : setByte 4 f = [fourBits f] := by
  simp [setByte, byteNat, fourBits, List.finRange_succ, Nat.add_assoc]

theorem fourBits_spec (f : Fin 4 → Bool) : (fourBits f).toNat < 16 ∧ ∀ i : Fin 4, (fourBits f).getLsbD i.val = f i := by
  unfold fourBits
  generalize h0 : f 0 = a
  generalize h1 : f 1 = b
  generalize h2 : f 2 = c
  generalize h3 : f 3 = d
  have bits : ∀ a b c d : Bool, ∀ x : Byte, x = BitVec.ofNat 8 ((if a then 1 else 0) + (if b then 2 else 0) +
      (if c then 4 else 0) + (if d then 8 else 0)) → x.toNat < 16 ∧ x.getLsbD 0 = a ∧ x.getLsbD 1 = b ∧
      x.getLsbD 2 = c ∧ x.getLsbD 3 = d := by
    rintro a b c d x rfl
    revert a b c d
    decide
  obtain ⟨hx, k0, k1, k2, k3⟩ := bits a b c d _ rfl
  refine ⟨hx, fun i => ?_⟩
  fin_cases i
  · exact k0.trans h0.symm
  · exact k1.trans h1.symm
  · exact k2.trans h2.symm
  · exact k3.trans h3.symm

/-- Settles O52: the named channels are rearmed one by one. -/
theorem rearmOpensGatedChannels : Obligations.RearmOpensGatedChannels := by
  intro s b hs
  refine ⟨fun hb => exec_rearm_of_bad_set hs hb, fun h0 h16 hi => exec_rearm_of_init hs h0 h16 hi, fun h0 h16 hi => ?_⟩
  let named := members (b.setWidth 4)
  have row : exec (.rearm b) s = .next ((s.withCap { s.cap with
      channels := Vector.ofFn fun c => if (b.setWidth 4).getLsbD c then (s.channel c).rearmed else s.channel c }).reply
      .accepted (setOf (named.filter fun c => decide ((s.channel c).state = .gated)))) := by
    simp only [exec, execRearm, State.hearing_of_listening hs.1 hs.2, argFour_spec h16,
      if_neg (setWidth_four_ne_zero h16 h0), if_neg hi]
    rfl
  obtain ⟨hlt, bits⟩ := fourBits_spec fun i => decide (i ∈ named.filter fun c => decide ((s.channel c).state = .gated))
  have bit : ∀ c : ChannelId, (b.setWidth 4).getLsbD c.val = b.getLsbD c.val := fun c => by
    simp [c.isLt]
  refine ⟨_, _, row, by rw [setOf, setByte_four]; rfl, hlt, fun c => ?_⟩
  have isNamed : (fourBits fun i => decide (i ∈ named.filter fun c => decide ((s.channel c).state = .gated))).getLsbD c.val =
      (b.getLsbD c.val && decide ((s.channel c).state = .gated)) := by
    rw [bits c, ← bit c]
    simp [named, members, Bool.and_comm]
  refine ⟨isNamed, ?_⟩
  rw [isNamed]
  have at_c : ∀ d : ResultCode × List Byte, ((s.withCap { s.cap with
      channels := Vector.ofFn fun c => if (b.setWidth 4).getLsbD c then (s.channel c).rearmed else s.channel c }).reply
      d.1 d.2).channel c = if (b.setWidth 4).getLsbD c then (s.channel c).rearmed else s.channel c := fun d => by
    simp [State.channel, State.reply]
  rw [at_c (_, _), bit c]
  cases b.getLsbD c.val with
  | false => simp
  | true =>
    by_cases hg : (s.channel c).state = .gated
    · simp [Channel.rearmed, hg]
    · simp [Channel.rearmed, hg]

/-! ## Classification -/

/-- Two windows that contain a common word overlap (R85). -/
theorem Window.overlaps_of_contains {v w : Window} {word : WordIndex} (hv : v.contains word = true)
    (hw : w.contains word = true) : v.overlaps w = true := by
  simp only [Window.contains, Window.overlaps, decide_eq_true_eq] at *
  omega

theorem Window.sharesPort_of_appliesTo {v w : Window} {p : Port} (hv : v.appliesTo p = true) (hw : w.appliesTo p = true) :
    v.sharesPort w = true := (Window.sharesPort_iff v w).mpr ⟨p, hv, hw⟩

/-- Under the rule of R88 the enabled window that contains a word and applies to a port is the governing one (R91). -/
theorem State.governingWindow_eq {s : State} (ha : s.windowsAgree) {p : Port} {word : WordIndex} {w : WindowId}
    (he : (s.window w).enabled = true) (hc : (s.window w).contains word = true) (hp : (s.window w).appliesTo p = true) :
    s.governingWindow p word = some w := by
  obtain ⟨-, apart, -⟩ := ha
  refine finRange_find_some (by simp [he, hc, hp]) fun x hx => ?_
  by_contra hg
  simp only [Bool.not_eq_false, Bool.and_eq_true] at hg
  obtain ⟨⟨hxe, hxc⟩, hxp⟩ := hg
  have := apart x w (ne_of_lt hx) hxe he (Window.sharesPort_of_appliesTo hxp hp)
  rw [Window.overlaps_of_contains hxc hc] at this
  cases this

/-- Settles O25. -/
theorem classificationFollowsTheWindow : Obligations.ClassificationFollowsTheWindow := by
  intro s p word
  refine ⟨fun h => ?_, fun h => ⟨fun w ha he hc hp => ?_, fun none => ?_⟩⟩
  · unfold State.classify
    split
    · exact absurd ‹_› h
    · rfl
    · rfl
  · unfold State.classify
    rw [h, State.governingWindow_eq ha he hc hp] <;> rfl
  · unfold State.classify
    rw [h]
    have : s.governingWindow p word = Option.none := List.find?_eq_none.mpr fun x _ => by simp [none x]
    rw [this]
    rfl

end Sys2Proof.Machine

/-! PROOFS. Slot instants and COMMIT_IN edges: the causes that commit events leave, what a happening does to the groups it
reaches one after another, and the rows that bring it. -/

namespace Sys2Proof.Machine

open Sys2Proof

/-! ## The causes that placements, hits and records leave -/

/-- All causes but the named members stand as before. -/
def State.causesStand (but : List Nat) (s t : State) : Prop :=
  ∀ i : Fin 19, i.val ∉ but → t.ev.causes.getLsbD i.val = s.ev.causes.getLsbD i.val

section
variable {but : List Nat}

theorem State.causesStand.of_ev {s t : State} (h : t.ev = s.ev) : s.causesStand but t := fun _ _ => by rw [h]

theorem State.causesStand.refl (s : State) : s.causesStand but s := .of_ev rfl

theorem State.causesStand.trans {s t u : State} (h : s.causesStand but t) (k : t.causesStand but u) :
    s.causesStand but u := fun i hi => (k i hi).trans (h i hi)

theorem State.raise_causesStand (s : State) (c : Cause) (h : c.member ∈ but) : s.causesStand but (s.raise c) :=
  fun i hi => by
  have : i.val ≠ c.member := fun e => hi (e ▸ h)
  rw [State.raise_bit, decide_eq_false this, Bool.or_false]

theorem State.refreshReady_causesStand (s : State) (h : 18 ∈ but) : s.causesStand but s.refreshReady := fun i hi => by
  have : i.val ≠ 18 := fun e => hi (e ▸ h)
  rw [State.refreshReady_bit, if_neg this]

end

/-! Hits and records can set CAPTURE_LOST and CAPTURE_READY; placements and commit events STAGE_REJECT as well. -/

section
variable {but : List Nat} (s : State)

theorem State.handRecord_causesStand (hl : 17 ∈ but) (hr : 18 ∈ but) (r : CaptureRecord) :
    s.causesStand but (s.handRecord r) := by
  unfold State.handRecord
  split
  · exact (State.causesStand.of_ev rfl).trans (State.refreshReady_causesStand _ hr)
  · exact (State.causesStand.of_ev rfl).trans (State.raise_causesStand _ _ hl)

theorem State.takeHit_causesStand (hl : 17 ∈ but) (hr : 18 ∈ but) (h : Hit) : s.causesStand but (s.takeHit h) := by
  unfold State.takeHit
  dsimp only
  repeat' split
  · exact .refl s
  · exact .of_ev rfl
  · exact .of_ev rfl
  · exact (State.causesStand.of_ev rfl).trans (State.handRecord_causesStand _ hl hr _)

theorem State.hitFor_causesStand (hl : 17 ∈ but) (hr : 18 ∈ but) (p : Port) (r : BusRequest) (cls : Classification)
    (m : LaneSet) (d : Lanes) (e : Bool) : s.causesStand but (s.hitFor p r cls m d e) := by
  unfold State.hitFor
  split
  · exact s.takeHit_causesStand hl hr _
  · exact .refl s

theorem State.enterHead_causesStand (hl : 17 ∈ but) (hr : 18 ∈ but) (p : Port) (r : BusRequest) :
    s.causesStand but (s.enterHead p r) := by
  unfold State.enterHead
  dsimp only
  split
  · exact (State.causesStand.of_ev (by simp)).trans (State.hitFor_causesStand _ hl hr _ _ _ _ _ _)
  · exact (State.causesStand.of_ev (by simp)).trans (State.hitFor_causesStand _ hl hr _ _ _ _ _ _)
  · exact .of_ev (by simp)
  · split
    · exact (State.causesStand.of_ev (by simp)).trans (State.hitFor_causesStand _ hl hr _ _ _ _ _ _)
    · exact .of_ev (by simp)

theorem State.bringHeads_causesStand (hl : 17 ∈ but) (hr : 18 ∈ but) (p : Port) (n : Nat) :
    ∀ s : State, s.causesStand but (s.bringHeads p n) := by
  induction n with
  | zero => exact fun s => .refl s
  | succ n ih =>
    intro s
    unfold State.bringHeads
    split
    · exact (s.enterHead_causesStand hl hr p _).trans (ih _)
    · exact .refl s

theorem State.moveOn_causesStand (hl : 17 ∈ but) (hr : 18 ∈ but) (p : Port) : s.causesStand but (s.moveOn p) :=
  State.bringHeads_causesStand hl hr _ _ _

theorem State.moveOnAll_causesStand (hl : 17 ∈ but) (hr : 18 ∈ but) (ports : List Port) :
    ∀ s : State, s.causesStand but (State.moveOnAll ports s) := by
  induction ports with
  | nil => exact fun s => .refl s
  | cons p ports ih => exact fun s => (s.moveOn_causesStand hl hr p).trans (ih _)

theorem State.place_causesStand (p : Port) (g : GroupId) (w : WordIndex) (m : LaneSet) (d : Lanes) :
    s.causesStand [12, 17, 18] (s.place p g w m d).1 := by
  unfold State.place
  repeat' split
  · exact .of_ev (by simp)
  · exact .of_ev (by simp)
  · exact (State.causesStand.of_ev (by simp)).trans (State.raise_causesStand _ _ (by decide))
  · exact .refl s

theorem State.retryHold_causesStand (h : Hold) : s.causesStand [12, 17, 18] (s.retryHold h).1 := by
  unfold State.retryHold
  split
  · rename_i w m d _ _ _
    have hp := s.place_causesStand h.port h.group w m d
    dsimp only
    split
    · exact hp.trans (.of_ev (by simp))
    · exact hp.trans (.of_ev (by simp))
    · exact hp.trans (.of_ev (by simp))
    · exact .refl s
  · exact .refl s

theorem State.retryAll_causesStand (holds : List Hold) :
    ∀ s : State, s.causesStand [12, 17, 18] (State.retryAll holds s).1 := by
  induction holds with
  | nil => exact fun s => .refl s
  | cons h holds ih => exact fun s => (s.retryHold_causesStand h).trans (ih _)

theorem State.retryHolds_causesStand (concerned : Hold → Bool) : s.causesStand [12, 17, 18] (s.retryHolds concerned) :=
  (State.retryAll_causesStand _ s).trans (State.moveOnAll_causesStand (by decide) (by decide) _ _)

theorem State.committed_causesStand (g : GroupId) : s.causesStand [12, 17, 18] (s.committed g) := by
  unfold State.committed
  split
  · unfold State.logEmptyCommit
    split
    · exact (State.causesStand.of_ev (by simp)).trans (State.handRecord_causesStand _ (by decide) (by decide) _)
    · exact .of_ev (by simp)
  · exact .of_ev (by simp)

theorem State.takeCommit_causesStand (g : GroupId) : s.causesStand [12, 17, 18] (s.takeCommit g) := by
  rw [State.takeCommit_eq]
  exact (s.committed_causesStand g).trans (State.retryHolds_causesStand _ _)

end

/-! ## One group at a slot instant or an edge -/

/-- What a commit event leaves of the ports, the windows and the holds while no write is held. -/
structure State.PortsStand (s t : State) : Prop where
  portA : t.portA = s.portA
  portB : t.portB = s.portB
  windows : t.windows = s.windows
  holds : t.holds = s.holds
  channels : t.cap.channels = s.cap.channels

theorem State.PortsStand.refl (s : State) : s.PortsStand s := ⟨rfl, rfl, rfl, rfl, rfl⟩

theorem State.PortsStand.trans {s t u : State} (h : s.PortsStand t) (k : t.PortsStand u) : s.PortsStand u :=
  ⟨k.portA.trans h.portA, k.portB.trans h.portB, k.windows.trans h.windows, k.holds.trans h.holds,
    k.channels.trans h.channels⟩

theorem State.handRecord_channels (s : State) (r : CaptureRecord) : (s.handRecord r).cap.channels = s.cap.channels := by
  unfold State.handRecord
  split <;> simp

theorem State.committed_portsStand (s : State) (g : GroupId) : s.PortsStand (s.committed g) := by
  unfold State.committed
  split
  · refine ⟨by simp, by simp, by simp, by simp, ?_⟩
    unfold State.logEmptyCommit
    split
    · rw [State.handRecord_channels]; simp
    · simp
  · exact ⟨by simp, by simp, by simp, by simp, by simp⟩

/-- With no write held a commit event changes nothing of the ports (R16). -/
theorem State.takeCommit_of_noHolds {s : State} (h : s.holds = []) (g : GroupId) : s.takeCommit g = s.committed g := by
  rw [State.takeCommit_eq, State.retryHolds_of_none]
  rw [(s.committed_portsStand g).holds, h]

theorem State.slotAt_portsStand {s : State} (h : s.holds = []) (g : GroupId) : s.PortsStand (s.slotAt g) := by
  unfold State.slotAt
  split
  · exact ⟨by simp, by simp, by simp, by simp, by simp⟩
  · rw [State.takeCommit_of_noHolds h]
    exact s.committed_portsStand g

/-- A group after its commit event, the retries of its held writes included, and the other groups (R35, R36). -/
theorem State.takeCommit_group {s : State} {g : GroupId} (hd : (s.group g).drainList = []) :
    (s.group g).committed s.now ((s.takeCommit g).group g) ∧
      ∀ h : GroupId, h ≠ g → (s.takeCommit g).group h = s.group h := by
  rw [State.takeCommit_eq]
  refine ⟨?_, fun h hne => ?_⟩
  · have after := ((s.committed g).retryHolds_group (fun x => decide (x.group = g)) g).1.same
    rw [State.committed_group, if_pos rfl] at after
    rw [after]
    refine ⟨rfl, rfl, rfl, rfl, ?_, rfl, rfl, rfl, rfl, rfl, rfl, rfl, rfl, rfl, rfl, rfl, rfl⟩
    by_cases ho : (s.group g).openList = []
    · simp [ho, hd]
    · simp [ho]
  · rw [((s.committed g).retryHolds_group (fun x => decide (x.group = g)) h).2 fun x hx => by
      rw [of_decide_eq_true hx]; exact hne]
    rw [State.committed_group, if_neg hne]

theorem State.slotAt_of_idle {s : State} {g : GroupId} (h : (s.group g).drainList = []) : s.slotAt g = s.takeCommit g := by
  unfold State.slotAt
  rw [if_neg (by simp [Group.isDraining, h])]

theorem State.slotAt_of_draining {s : State} {g : GroupId} (h : (s.group g).drainList ≠ []) :
    s.slotAt g = s.missSlot g := by
  unfold State.slotAt
  rw [if_pos (by simp [Group.isDraining, h])]

theorem State.missSlot_group (s : State) (g h : GroupId) : (s.missSlot g).group h =
    if h = g then { s.group h with counts := { (s.group h).counts with missedSlots := (s.group h).counts.missedSlots + 1 } }
    else s.group h := by
  simp [State.missSlot, State.countGroup_group]

/-- A slot instant or an edge at one group: its commit event or its missed slot (R35, R37). -/
theorem State.slotAt_group (s : State) (g h : GroupId) :
    (s.group h).slotOutcome (decide (h = g)) s.now ((s.slotAt g).group h) := by
  by_cases e : h = g
  · subst e
    simp only [Group.slotOutcome, decide_true, if_true]
    by_cases hd : (s.group h).drainList = []
    · rw [if_pos hd, State.slotAt_of_idle hd]
      exact (State.takeCommit_group hd).1
    · rw [if_neg hd, State.slotAt_of_draining hd, State.missSlot_group, if_pos rfl]
      rfl
  · simp only [Group.slotOutcome, decide_eq_false e, Bool.false_eq_true, if_false]
    by_cases hd : (s.group g).drainList = []
    · rw [State.slotAt_of_idle hd]
      exact (State.takeCommit_group hd).2 h e
    · rw [State.slotAt_of_draining hd, State.missSlot_group, if_neg e]

/-- The generations a happening appends for a list of groups (R34, R35). -/
def generationsOf (stamp : Stamp) (moment : BitVec 32) (groups : GroupId → Group) (l : List GroupId) :
    List (GroupId × BitVec 16 × Stamp × BitVec 32 × BitVec 12) :=
  (l.filter fun g => decide ((groups g).drainList = []) && decide ((groups g).openList ≠ [])).map fun g =>
    (g, (groups g).sequence + 1, stamp, moment, (groups g).drainBudget)

/-- The drain engine after a happening: generations appended, COMMIT_BUSY raised with them, the leftover writes as before. -/
structure DrainEngine.Appends (origins : List (GroupId × BitVec 16 × Stamp × BitVec 32 × BitVec 12))
    (before after : DrainEngine) : Prop where
  queue : ∃ new : List Drain, after.queue = before.queue ++ new ∧ new.map Drain.origin = origins
  leftovers : after.leftovers = before.leftovers
  busy : after.commitBusy = (before.commitBusy || !origins.isEmpty)

theorem DrainEngine.Appends.nil (d : DrainEngine) : d.Appends [] d := ⟨⟨[], by simp, rfl⟩, rfl, by simp⟩

theorem DrainEngine.Appends.append {x y : List (GroupId × BitVec 16 × Stamp × BitVec 32 × BitVec 12)}
    {a b c : DrainEngine} (h : a.Appends x b) (k : b.Appends y c) : a.Appends (x ++ y) c := by
  obtain ⟨n, hn, hm⟩ := h.queue
  obtain ⟨n', hn', hm'⟩ := k.queue
  refine ⟨⟨n ++ n', by rw [hn', hn, List.append_assoc], by rw [List.map_append, hm, hm']⟩, k.leftovers.trans h.leftovers, ?_⟩
  rw [k.busy, h.busy]
  cases x <;> cases y <;> simp

theorem State.slotAt_drain (s : State) (g : GroupId) :
    s.drain.Appends (generationsOf s.now s.tb.usClock s.group [g]) (s.slotAt g).drain := by
  by_cases hd : (s.group g).drainList = []
  · rw [State.slotAt_of_idle hd, State.takeCommit_eq]
    have kept := fun f => ((s.committed g).retryHolds_frame f).2.2.1
    rw [kept, State.committed_drain]
    by_cases ho : (s.group g).openList = []
    · rw [if_pos ho]
      simpa [generationsOf, hd, ho] using DrainEngine.Appends.nil s.drain
    · rw [if_neg ho]
      have : generationsOf s.now s.tb.usClock s.group [g] =
          [(g, (s.group g).sequence + 1, s.now, s.tb.usClock, (s.group g).drainBudget)] := by
        simp [generationsOf, hd, ho]
      rw [this]
      exact ⟨⟨_, rfl, rfl⟩, rfl, by simp⟩
  · rw [State.slotAt_of_draining hd]
    simpa [generationsOf, hd] using DrainEngine.Appends.nil s.drain

theorem State.slotAt_missed (s : State) (g h : GroupId) : (s.slotAt g).ev.causes.getLsbD h.val =
    (s.ev.causes.getLsbD h.val || (decide (h = g) && decide ((s.group h).drainList ≠ []))) := by
  by_cases hd : (s.group g).drainList = []
  · rw [State.slotAt_of_idle hd, s.takeCommit_causesStand g ⟨h.val, by omega⟩ (by simp; omega)]
    by_cases e : h = g
    · subst e; simp [hd]
    · simp [e]
  · rw [State.slotAt_of_draining hd]
    refine (State.raise_bit _ _ ⟨h.val, by omega⟩).trans ?_
    simp only [State.countGroup_frame, Cause.member]
    by_cases e : h = g
    · subst e; simp [hd]
    · simp [e, Fin.val_inj]

/-! ## One happening for several groups -/

/-- A happening for several groups, each taken whole before the next (R34): none of them changes another. -/
theorem State.slotsAt_outcomes (l : List GroupId) : ∀ s : State, l.Nodup →
    (∀ h : GroupId, (s.group h).slotOutcome (decide (h ∈ l)) s.now ((s.slotsAt l).group h)) ∧
    s.drain.Appends (generationsOf s.now s.tb.usClock s.group l) (s.slotsAt l).drain ∧
    (∀ h : GroupId, (s.slotsAt l).ev.causes.getLsbD h.val =
      (s.ev.causes.getLsbD h.val || (decide (h ∈ l) && decide ((s.group h).drainList ≠ [])))) ∧
    (s.holds = [] → s.PortsStand (s.slotsAt l)) := by
  induction l with
  | nil => exact fun s _ => ⟨fun h => rfl, .nil _, fun h => by simp [State.slotsAt], fun _ => .refl s⟩
  | cons g l ih =>
    intro s hl
    obtain ⟨hg, hl'⟩ := List.nodup_cons.mp hl
    obtain ⟨outcome, drain, missed, ports⟩ := ih (s.slotAt g) hl'
    have now : (s.slotAt g).now = s.now := by simp [State.now]
    have clock : (s.slotAt g).tb = s.tb := by simp
    have others : ∀ h : GroupId, h ≠ g → (s.slotAt g).group h = s.group h := fun h hne => by
      have := s.slotAt_group g h
      rwa [decide_eq_false hne] at this
    have inRest : ∀ h ∈ l, h ≠ g := fun h hh e => hg (e ▸ hh)
    refine ⟨fun h => ?_, ?_, fun h => ?_, fun hh => ?_⟩
    · by_cases e : h = g
      · subst e
        have here := s.slotAt_group h h
        have rest := outcome h
        rw [decide_eq_false hg] at rest
        change (s.slotsAt (h :: l)).group h = (s.slotAt h).group h at rest
        rw [rest]
        simpa using here
      · have rest := outcome h
        rw [others h e, now] at rest
        simpa [e, State.slotsAt] using rest
    · have same : ∀ h ∈ l, (decide (((s.slotAt g).group h).drainList = []) && decide (((s.slotAt g).group h).openList ≠ [])) =
          (decide ((s.group h).drainList = []) && decide ((s.group h).openList ≠ [])) := fun h hh => by
        rw [others h (inRest h hh)]
      have rest : generationsOf (s.slotAt g).now (s.slotAt g).tb.usClock (s.slotAt g).group l =
          generationsOf s.now s.tb.usClock s.group l := by
        rw [now, clock]
        unfold generationsOf
        rw [List.filter_congr same]
        refine List.map_congr_left fun h hh => ?_
        simp only [others h (inRest h (List.mem_filter.mp hh).1)]
      rw [rest] at drain
      have both := (s.slotAt_drain g).append drain
      have split : generationsOf s.now s.tb.usClock s.group [g] ++ generationsOf s.now s.tb.usClock s.group l =
          generationsOf s.now s.tb.usClock s.group (g :: l) := by
        rw [generationsOf, generationsOf, ← List.map_append, ← List.filter_append]
        rfl
      rw [split] at both
      exact both
    · refine (missed h).trans ?_
      rw [s.slotAt_missed]
      by_cases e : h = g
      · subst e; simp [hg]
      · simp [e, others h e]
    · exact (State.slotAt_portsStand hh g).trans (ports ((State.slotAt_portsStand hh g).holds.trans hh))

/-- The groups a happening reaches, taken in ascending number (R34). -/
theorem State.slotsAt_taken (s : State) (reached : GroupId → Bool) :
    s.slotsTaken reached s.now s.group (s.slotsAt ((List.finRange 4).filter reached)) := by
  have hn : ((List.finRange 4).filter reached).Nodup := (List.nodup_finRange 4).filter _
  obtain ⟨outcome, drain, missed, ports⟩ := State.slotsAt_outcomes _ s hn
  have mem : ∀ h : GroupId, decide (h ∈ (List.finRange 4).filter reached) = reached h := fun h => by simp
  have origins : generationsOf s.now s.tb.usClock s.group ((List.finRange 4).filter reached) =
      (newGenerations reached s.group).map fun g =>
        (g, (s.group g).sequence + 1, s.now, s.tb.usClock, (s.group g).drainBudget) := by
    unfold generationsOf newGenerations
    rw [List.filter_filter]
    refine congrArg _ (List.filter_congr fun g _ => ?_)
    rw [Bool.and_comm, ← Bool.and_assoc]
  rw [origins] at drain
  refine ⟨fun h => by rw [← mem h]; exact outcome h, drain.queue, drain.leftovers, ?_, fun h => by rw [missed h, mem h],
    by simp, by simp, fun hh => ?_⟩
  · rw [drain.busy]; simp
  · obtain ⟨ha, hb, hw, hx, -⟩ := ports hh
    exact ⟨ha, hb, hw, hx.trans hh⟩

theorem State.concernedGroups_eq (s : State) (source : TriggerSource) (also : Group → Bool) :
    s.concernedGroups source also = (List.finRange 4).filter fun g =>
      decide (s.op = .active) && (s.group g).enabled && decide ((s.group g).trigger = source) && also (s.group g) := by
  unfold State.concernedGroups
  by_cases h : s.op = .active
  · simp [h]
  · simp [h]

/-- A slot instant for the value the counter stands at (R124). -/
theorem State.slotInstant_taken (s : State) :
    s.slotsTaken (s.slotReaches s.group s.tb.counter) s.now s.group s.slotInstant := by
  unfold State.slotInstant
  rw [State.concernedGroups_eq]
  exact s.slotsAt_taken (s.slotReaches s.group s.tb.counter)

theorem State.commitInEdge_taken (s : State) :
    s.slotsTaken (fun g => decide (s.op = .active) && (s.group g).enabled && decide ((s.group g).trigger = .external))
      s.now s.group s.commitInEdge := by
  unfold State.commitInEdge
  rw [State.concernedGroups_eq]
  simp only [Bool.and_true]
  exact s.slotsAt_taken _

/-- A happening judged from an earlier state that agrees in the blocks a happening leaves or adds to. -/
theorem State.slotsTaken.from {s u t : State} {reached : GroupId → Bool} {stamp : Stamp} {groups : GroupId → Group}
    (h : u.slotsTaken reached stamp groups t) (drain : u.drain = s.drain) (clock : u.tb.usClock = s.tb.usClock)
    (causes : ∀ g : GroupId, u.ev.causes.getLsbD g.val = s.ev.causes.getLsbD g.val) (arb : u.arb = s.arb) (op : u.op = s.op)
    (a : u.portA = s.portA) (b : u.portB = s.portB) (windows : u.windows = s.windows) (holds : u.holds = s.holds) :
    s.slotsTaken reached stamp groups t := by
  unfold State.slotsTaken at h ⊢
  simpa only [drain, clock, causes, arb, op, a, b, windows, holds] using h

/-- Settles O34. -/
theorem slotsAndEdgesReachTheirGroups : Obligations.SlotsAndEdgesReachTheirGroups := by
  refine ⟨fun s hr hrun hlt => ?_, fun s h => congrArg Host.Outcome.next (State.onEdge_of_highFromRelease h _),
    fun s hr h => ⟨_, congrArg Host.Outcome.next (State.onEdge_of_hasBeenLow hr h _), by simp, by simp, s.commitInEdge_taken⟩⟩
  refine ⟨s.counterStep, congrArg Host.Outcome.next (State.awake_of_high hr _), ?_⟩
  have step : s.counterStep = (s.withTb { s.tb with counter := s.tb.counter + 1 }).slotInstant := by
    unfold State.counterStep
    rw [if_pos (by simp [hrun, State.belowLast, hlt])]
  rw [step]
  refine ⟨by simp, by simp, ?_⟩
  have taken := (s.withTb { s.tb with counter := s.tb.counter + 1 }).slotInstant_taken
  have stamp : (s.withTb { s.tb with counter := s.tb.counter + 1 }).now = ⟨s.tb.cycle, s.tb.counter + 1, true⟩ := by
    simp [State.now, hrun]
  rw [stamp] at taken
  exact taken.from rfl rfl (fun _ => rfl) rfl rfl rfl rfl rfl rfl

end Sys2Proof.Machine

/-! PROOFS. Wraps, natural and forced, START_TIMEBASE and STOP_TIMEBASE, and the groups of a COMMIT_NOW. -/

namespace Sys2Proof.Machine

open Sys2Proof

/-! ## Wraps -/

/-- The first step of a wrap: counter 0 and the next cycle (R123). -/
def State.wrapEntered (s : State) : State := s.withTb { s.tb with counter := 0, cycle := s.tb.cycle + 1 }

/-- The state of a wrap right before its slot instant (R123, steps 1 to 3). -/
def State.wrapApplied (s : State) : State :=
  (if s.anyPending then s.wrapEntered.applyPending.evaluateSlotRange else s.wrapEntered).rearmAtWrap

theorem State.wrap_eq (s : State) : s.wrap = s.wrapApplied.slotInstant := rfl

@[simp] theorem State.wrapApplied_frame (s : State) :
    s.wrapApplied.op = s.op ∧ s.wrapApplied.windows = s.windows ∧ s.wrapApplied.holds = s.holds ∧
    s.wrapApplied.drain = s.drain ∧ s.wrapApplied.arb = s.arb ∧ s.wrapApplied.portA = s.portA ∧
    s.wrapApplied.portB = s.portB ∧ s.wrapApplied.mgmt = s.mgmt := by
  unfold State.wrapApplied
  split <;> simp [State.wrapEntered]

@[simp] theorem State.wrapApplied_tb (s : State) : s.wrapApplied.tb = s.tb.wrapped := by
  have := s.wrap_tb
  rwa [State.wrap_eq, (State.slotInstant_frame _).2.2.2.1] at this

theorem Channel.atWrap_eq (ch : Channel) : (if ch.rearmAtWrap then ch.rearmed else ch) = ch.atWrap := by
  unfold Channel.atWrap Channel.rearmed
  cases ch.rearmAtWrap <;> simp

theorem State.applyPending_group (s : State) (g : GroupId) : s.applyPending.group g =
    { s.group g with slotOffset := (s.group g).pendingOffset.getD (s.group g).slotOffset, pendingOffset := none } := by
  simp [State.applyPending, State.group]

theorem State.channel_eq {s t : State} (h : t.cap = s.cap) (c : ChannelId) : t.channel c = s.channel c := by
  simp [State.channel, h]

theorem State.wrapApplied_channel (s : State) (c : ChannelId) : s.wrapApplied.channel c = (s.channel c).atWrap := by
  unfold State.wrapApplied
  rw [State.rearmAtWrap_channel, ← Channel.atWrap_eq]
  split
  · rw [State.channel_eq (s := s) (by simp [State.wrapEntered])]
  · rw [State.channel_eq (s := s) (by simp [State.wrapEntered])]

/-- With nothing pending a wrap leaves every group as it is. -/
theorem State.groupAtWrap_of_none {s : State} (h : ¬ s.anyPending = true) (g : GroupId) : s.groupAtWrap g = s.group g := by
  have hn : (s.group g).pendingOffset = none := by
    simp only [State.anyPending, Bool.or_eq_true, not_or, Bool.not_eq_true, groups_any, List.any_eq_false] at h
    simpa [State.group] using h.2 g (List.mem_finRange g)
  unfold State.groupAtWrap
  rw [if_neg h]
  generalize s.group g = x at hn ⊢
  cases x
  simp_all

/-- The groups after the apply of a wrap (R123, R127). -/
theorem State.applied_group {s : State} (h : s.anyPending = true) (g : GroupId) :
    s.wrapEntered.applyPending.evaluateSlotRange.group g = s.groupAtWrap g := by
  rw [State.evaluateSlotRange_group, State.applyPending_group]
  simp only [Group.judgedRange, State.groupAtWrap, h, if_true, State.applyPending, State.withGroups_tb, State.withTb_tb]
  rfl

/-- The groups a wrap's slot instant finds (R123, R127). -/
theorem State.wrapApplied_group (s : State) (g : GroupId) : s.wrapApplied.group g = s.groupAtWrap g := by
  unfold State.wrapApplied
  rw [State.group_eq (State.rearmAtWrap_frame _).2.2.2.2.2.1]
  by_cases h : s.anyPending = true
  · rw [if_pos h, State.applied_group h]
  · rw [if_neg h, State.groupAtWrap_of_none h]
    rfl

/-- The causes of a wrap before its slot instant: SLOT_RANGE where an apply found a group out of range (R127). -/
theorem State.wrapApplied_causes (s : State) : s.wrapApplied.ev.causes =
    if (s.anyPending && (List.finRange 4).any fun g => (s.groupAtWrap g).outOfRange) = true
    then s.ev.causes ||| BitVec.twoPow 19 15 else s.ev.causes := by
  unfold State.wrapApplied
  rw [(State.rearmAtWrap_frame _).2.2.2.2.2.2.2.2.2.2.2.1]
  by_cases h : s.anyPending = true
  · rw [if_pos h, State.evaluateSlotRange_causes]
    simp only [State.applied_group h, h, Bool.true_and, State.applyPending_frame]
    rfl
  · simp [h, State.wrapEntered]

theorem State.wrapApplied_bit (s : State) (i : Fin 19) : s.wrapApplied.ev.causes.getLsbD i.val =
    (s.ev.causes.getLsbD i.val || (decide (i.val = 15) && (s.anyPending &&
      (List.finRange 4).any fun g => (s.groupAtWrap g).outOfRange))) := by
  rw [State.wrapApplied_causes]
  cases (s.anyPending && (List.finRange 4).any fun g => (s.groupAtWrap g).outOfRange) with
  | false => simp
  | true =>
    simp only [if_true, Bool.and_true, BitVec.getLsbD_or, BitVec.getLsbD_twoPow]
    congr 1
    have := i.isLt
    rw [Bool.eq_iff_iff]
    simp
    omega

/-- A slot instant leaves the causes of the timebase (R155). -/
theorem State.slotInstant_bit (s : State) (i : Fin 19) (h : 13 ≤ i.val) (h' : i.val ≤ 16) :
    s.slotInstant.ev.causes.getLsbD i.val = s.ev.causes.getLsbD i.val := by
  have all : ∀ (l : List GroupId) (u : State), (u.slotsAt l).ev.causes.getLsbD i.val = u.ev.causes.getLsbD i.val := by
    intro l
    induction l with
    | nil => exact fun u => rfl
    | cons g l ih =>
      intro u
      refine (ih (u.slotAt g)).trans ?_
      by_cases hd : (u.group g).drainList = []
      · rw [State.slotAt_of_idle hd]
        exact u.takeCommit_causesStand g i (by simp; omega)
      · rw [State.slotAt_of_draining hd]
        refine (State.raise_bit _ _ i).trans ?_
        have : i.val ≠ (Cause.slotMissed g).member := by
          change i.val ≠ g.val
          omega
        simp [this]
  exact all _ s

theorem State.slotInstant_channels {s : State} (h : s.holds = []) : s.slotInstant.cap.channels = s.cap.channels := by
  unfold State.slotInstant
  rw [State.concernedGroups_eq]
  exact ((State.slotsAt_outcomes _ s ((List.nodup_finRange 4).filter _)).2.2.2 h).channels

/-- What a wrap does, natural or forced (R123). -/
theorem State.wrap_wrapped (s : State) (hrun : s.tb.running = true) : s.wrapped s.tb.wrapped s.wrap := by
  have taken := s.wrapApplied.slotInstant_taken
  have group : s.wrapApplied.group = s.groupAtWrap := funext s.wrapApplied_group
  have tb : s.wrapApplied.tb = s.tb.wrapped := s.wrapApplied_tb
  have stamp : s.wrapApplied.now = ⟨s.tb.cycle + 1, 0, true⟩ := by simp [State.now, Timebase.wrapped, hrun]
  have reaches : s.wrapApplied.slotReaches s.wrapApplied.group s.wrapApplied.tb.counter =
      s.slotReaches s.groupAtWrap 0 := by
    funext g
    simp [State.slotReaches, s.wrapApplied_group g, Timebase.wrapped]
  rw [reaches, stamp, group, ← State.wrap_eq] at taken
  refine ⟨s.wrap_tb, taken.from (by simp) (by simp [Timebase.wrapped]) (fun g => ?_) (by simp) (by simp) (by simp)
    (by simp) (by simp) (by simp), ?_, fun h c => ?_⟩
  · have := s.wrapApplied_bit ⟨g.val, by omega⟩
    have hne : g.val ≠ 15 := by omega
    simpa [hne] using this
  · rw [State.wrap_eq, State.slotInstant_bit _ ⟨15, by decide⟩ (by decide) (by decide), State.wrapApplied_bit]
    simp
  · rw [State.wrap_eq, ← State.wrapApplied_channel]
    have := State.slotInstant_channels (s := s.wrapApplied) (by simpa using h)
    simp only [State.channel, this]

/-- A wrap judged from an earlier state that agrees in the blocks a wrap starts from. -/
theorem State.wrapped.from {s u t : State} {tb : Timebase} (h : u.wrapped tb t) (ev : ∀ i : Fin 19, i.val ≠ 16 →
    u.ev.causes.getLsbD i.val = s.ev.causes.getLsbD i.val) (tbs : u.tb.pendingPeriod = s.tb.pendingPeriod ∧
      u.tb.period = s.tb.period ∧ u.tb.pendingPrescale = s.tb.pendingPrescale ∧ u.tb.cycle = s.tb.cycle ∧
      u.tb.usClock = s.tb.usClock)
    (groups : u.groups = s.groups) (drain : u.drain = s.drain) (arb : u.arb = s.arb) (op : u.op = s.op)
    (a : u.portA = s.portA) (b : u.portB = s.portB) (windows : u.windows = s.windows) (holds : u.holds = s.holds)
    (cap : u.cap = s.cap) : s.wrapped tb t := by
  obtain ⟨hpp, hp, hpr, hc, hu⟩ := tbs
  have any : u.anyPending = s.anyPending := by simp [State.anyPending, hpp, hpr, groups]
  have group : u.groupAtWrap = s.groupAtWrap := by
    funext g
    simp only [State.groupAtWrap, any, hpp, hp, State.group_eq groups]
  have reaches : u.slotReaches = s.slotReaches := by
    funext x v g
    simp [State.slotReaches, op]
  obtain ⟨htb, taken, bit, channels⟩ := h
  rw [group, reaches, hc] at taken
  rw [any, group, ev ⟨15, by decide⟩ (by decide)] at bit
  refine ⟨htb, taken.from drain hu (fun g => ev ⟨g.val, by omega⟩ (by have := g.isLt; change g.val ≠ 16; omega))
    arb op a b windows holds, bit,
    fun hh c => ?_⟩
  rw [channels (holds.trans hh) c, State.channel_eq cap]

/-- A SYNC_IN edge below period-1 truncates the cycle (R128). -/
theorem State.syncEdge_of_truncated {s : State} (hrun : s.tb.running = true) (hsync : s.tb.syncEnable = true)
    (hb : s.tb.counter.toNat + 1 < s.tb.period.toNat) : s.syncEdge =
    ((s.withTb { s.tb with tickDivider := 0, truncated := s.tb.truncated + 1 }).raise .truncated).wrap := by
  have below : s.belowLast = true := decide_eq_true hb
  unfold State.syncEdge
  simp only [hsync, hrun, below, Bool.and_self, if_true]
  rfl

/-- A SYNC_IN edge at period-1 is a wrap with a fresh tick (R128). -/
theorem State.syncEdge_of_last {s : State} (hrun : s.tb.running = true) (hsync : s.tb.syncEnable = true)
    (hb : ¬ s.tb.counter.toNat + 1 < s.tb.period.toNat) :
    s.syncEdge = (s.withTb { s.tb with tickDivider := 0 }).wrap := by
  have below : s.belowLast = false := decide_eq_false hb
  unfold State.syncEdge
  simp only [hsync, hrun, below, Bool.and_self, if_true, Bool.false_eq_true, if_false]

/-- Settles O35. -/
theorem wrapsDoTheirFourThings : Obligations.WrapsDoTheirFourThings := by
  refine ⟨fun s hr hrun hle => ?_, fun s hr => ⟨fun hseen hrun hsync => ?_, fun h => ?_⟩⟩
  · refine ⟨s.naturalWrap, congrArg Host.Outcome.next (State.awake_of_high hr _), by simp, ?_⟩
    have : s.naturalWrap = s.wrap := by
      unfold State.naturalWrap
      rw [if_pos]
      have : ¬ s.tb.counter.toNat + 1 < s.tb.period.toNat := by omega
      simp [hrun, State.belowLast, this]
    rw [this]
    exact s.wrap_wrapped hrun
  · refine ⟨s.syncEdge, congrArg Host.Outcome.next (State.onEdge_of_hasBeenLow hr hseen _), by simp, ?_⟩
    by_cases hb : s.tb.counter.toNat + 1 < s.tb.period.toNat
    · rw [State.syncEdge_of_truncated hrun hsync hb, if_pos hb]
      generalize hu : (s.withTb { s.tb with tickDivider := 0, truncated := s.tb.truncated + 1 }).raise .truncated = u
      have ev : ∀ i : Fin 19, u.ev.causes.getLsbD i.val = (s.ev.causes.getLsbD i.val || decide (i.val = 16)) := fun i => by
        subst hu
        exact State.raise_bit _ _ i
      have wrapped := u.wrap_wrapped (by subst hu; exact hrun)
      refine ⟨?_, ?_⟩
      · have hw : u.tb.wrapped = { s.tb.wrapped with tickDivider := 0, truncated := s.tb.truncated + 1 } := by subst hu; rfl
        rw [hw] at wrapped
        refine wrapped.from (fun i hi => by rw [ev i, decide_eq_false hi, Bool.or_false]) ?_ ?_ ?_ ?_ ?_ ?_ ?_ ?_ ?_ ?_
        · subst hu; exact ⟨rfl, rfl, rfl, rfl, rfl⟩
        all_goals subst hu; rfl
      · rw [State.wrap_eq, State.slotInstant_bit _ ⟨16, by decide⟩ (by decide) (by decide), State.wrapApplied_bit, ev]
        simp [hb]
    · rw [State.syncEdge_of_last hrun hsync hb, if_neg hb]
      have wrapped := (s.withTb { s.tb with tickDivider := 0 }).wrap_wrapped hrun
      refine ⟨wrapped.from (fun _ _ => rfl) ⟨rfl, rfl, rfl, rfl, rfl⟩ rfl rfl rfl rfl rfl rfl rfl rfl rfl, ?_⟩
      rw [State.wrap_eq, State.slotInstant_bit _ ⟨16, by decide⟩ (by decide) (by decide), State.wrapApplied_bit]
      simp [hb]
  · by_cases hseen : s.inputs.syncIn.seen = .highFromRelease
    · exact congrArg Host.Outcome.next (State.onEdge_of_highFromRelease hseen _)
    · refine congrArg Host.Outcome.next ((State.onEdge_of_hasBeenLow hr hseen _).trans ?_)
      unfold State.syncEdge
      rw [if_neg]
      rcases h with h | h | h
      · simp [h]
      · simp [h]
      · exact absurd h hseen

/-! ## START_TIMEBASE and STOP_TIMEBASE -/

/-- Settles O36. -/
theorem timebaseStartsAndStops : Obligations.TimebaseStartsAndStops := by
  intro s hs hi
  have start : exec .startTimebase s = .next (if s.tb.running then s.refuse .badState 0 else s.startTimebase.accept) :=
    congrArg Host.Outcome.next ((State.hearing_of_listening hs.1 hs.2 _).trans (State.unlessInit_of_ne hi _ _))
  refine ⟨fun hr => ?_, fun hr => by rw [start, if_pos hr]; rfl, ?_⟩
  · refine ⟨s.startTimebase.accept, by rw [start, if_neg (by simp [hr])], by simp [State.startTimebase], ?_, ?_⟩
    · simp [State.accept, State.reply, State.withMgmt]
    · have taken := (s.withTb { s.tb with counter := 0, tickDivider := 0, running := true }).slotInstant_taken
      exact taken.from (s := s) rfl rfl (fun _ => rfl) rfl rfl rfl rfl rfl rfl
  · exact congrArg Host.Outcome.next ((State.hearing_of_listening hs.1 hs.2 _).trans (State.unlessInit_of_ne hi _ _))

end Sys2Proof.Machine

/-! PROOFS. COMMIT_NOW and ABORT_GROUP; the word a read is given from the lists, before and after a commit. -/

namespace Sys2Proof.Machine

open Sys2Proof

/-! ## COMMIT_NOW -/

theorem State.commitNow_of_off {s : State} {g : GroupId} (h : (s.group g).enabled = false) (l : List GroupId) :
    State.commitNow (g :: l) s = State.commitNow l s := by
  simp [State.commitNow, h]

theorem State.commitNow_of_draining {s : State} {g : GroupId} (h : (s.group g).enabled = true)
    (hd : (s.group g).drainList ≠ []) (l : List GroupId) :
    State.commitNow (g :: l) s = ((State.commitNow l s).1, (State.commitNow l s).2.1, g :: (State.commitNow l s).2.2) := by
  simp [State.commitNow, h, Group.isDraining, hd]

theorem State.commitNow_of_idle {s : State} {g : GroupId} (h : (s.group g).enabled = true)
    (hd : (s.group g).drainList = []) (l : List GroupId) :
    State.commitNow (g :: l) s = ((State.commitNow l (s.takeCommit g)).1, g :: (State.commitNow l (s.takeCommit g)).2.1,
      (State.commitNow l (s.takeCommit g)).2.2) := by
  simp [State.commitNow, h, Group.isDraining, hd]

/-- What a COMMIT_NOW of a list of groups does to each group, and the sets it reports (R38). -/
theorem State.commitNow_groups (l : List GroupId) : ∀ s : State, l.Nodup → ∀ g : GroupId,
    (g ∈ (State.commitNow l s).2.1 ↔ g ∈ l ∧ (s.group g).enabled = true ∧ (s.group g).drainList = []) ∧
    (g ∈ (State.commitNow l s).2.2 ↔ g ∈ l ∧ (s.group g).enabled = true ∧ (s.group g).drainList ≠ []) ∧
    (g ∈ l → (s.group g).enabled = true → (s.group g).drainList = [] →
      (s.group g).committed s.now ((State.commitNow l s).1.group g)) ∧
    (g ∉ l ∨ (s.group g).enabled = false ∨ (s.group g).drainList ≠ [] →
      (State.commitNow l s).1.group g = s.group g) := by
  induction l with
  | nil => exact fun s _ g => ⟨by simp [State.commitNow], by simp [State.commitNow], fun h => by simp at h, fun _ => rfl⟩
  | cons h l ih =>
    intro s hl g
    obtain ⟨hh, hl'⟩ := List.nodup_cons.mp hl
    by_cases he : (s.group h).enabled = true
    · by_cases hd : (s.group h).drainList = []
      · rw [State.commitNow_of_idle he hd]
        obtain ⟨here, there⟩ := State.takeCommit_group hd
        obtain ⟨taken, busy, comm, stay⟩ := ih (s.takeCommit h) hl' g
        by_cases e : g = h
        · subst e
          have same := stay (.inl hh)
          refine ⟨by simp [he, hd], ?_, fun _ _ _ => same ▸ here, fun k => ?_⟩
          · simp [busy, hh, hd]
          · simp [he, hd] at k
        · have now : (s.takeCommit h).now = s.now := by simp [State.now]
          rw [there g e] at taken busy comm stay
          rw [now] at comm
          simpa [e] using ⟨taken, busy, comm, stay⟩
      · rw [State.commitNow_of_draining he hd]
        obtain ⟨taken, busy, comm, stay⟩ := ih s hl' g
        by_cases e : g = h
        · subst e
          refine ⟨?_, by simp [he, hd], fun _ _ k => absurd k hd, fun _ => stay (.inl hh)⟩
          simp [taken, hh, hd]
        · simpa [e] using ⟨taken, busy, comm, stay⟩
    · have he' : (s.group h).enabled = false := by simpa using he
      rw [State.commitNow_of_off he']
      obtain ⟨taken, busy, comm, stay⟩ := ih s hl' g
      by_cases e : g = h
      · subst e
        refine ⟨?_, ?_, fun _ k => absurd k he, fun _ => stay (.inl hh)⟩
        · simp [taken, hh, he']
        · simp [busy, hh, he']
      · simpa [e] using ⟨taken, busy, comm, stay⟩

theorem mem_members (b : Byte) (g : Fin 4) : g ∈ members (b.setWidth 4) ↔ b.getLsbD g.val = true := by
  simp [members]

theorem members_nodup (x : BitVec 4) : (members x).Nodup := (List.nodup_finRange 4).filter _

/-- Settles O37. -/
theorem commitNowTakesOrReportsBusy : Obligations.CommitNowTakesOrReportsBusy := by
  refine ⟨fun s b hs => ⟨exec_commitNow_of_bad_set hs, fun h0 h ha => ?_⟩, fun s b hs ha h0 h => ?_⟩
  · rw [exec_commitNow_of_set hs h0 h, if_neg ha]
    rfl
  · let l := members (b.setWidth 4)
    obtain ⟨htaken, tbits⟩ := fourBits_spec fun i => decide (i ∈ (State.commitNow l s).2.1)
    obtain ⟨hbusy, bbits⟩ := fourBits_spec fun i => decide (i ∈ (State.commitNow l s).2.2)
    refine ⟨_, _, _, (exec_commitNow_of_set hs h0 h).trans (congrArg _ (if_pos ha)), ?_, htaken, hbusy, by simp, by simp,
      fun g => ?_⟩
    · simp only [setOf, setByte_four]
      simp [State.reply, State.withMgmt, l]
    · obtain ⟨taken, busy, comm, stay⟩ := State.commitNow_groups l s (members_nodup _) g
      rw [mem_members] at taken busy comm stay
      refine ⟨?_, ?_, fun hn hd => ?_, fun k => ?_⟩
      · rw [tbits g, Bool.eq_iff_iff, decide_eq_true_iff, taken]
        simp [and_assoc]
      · rw [bbits g, Bool.eq_iff_iff, decide_eq_true_iff, busy]
        simp [and_assoc]
      · obtain ⟨h1, h2⟩ := Bool.and_eq_true_iff.mp hn
        exact comm h1 h2 hd
      · refine stay ?_
        rcases k with k | k
        · simp only [Bool.and_eq_false_iff] at k
          rcases k with k | k
          · exact .inl (by simp [k])
          · exact .inr (.inl k)
        · exact .inr (.inr k)

theorem twoPow_lt (g : GroupId) : (BitVec.twoPow 8 g.val).toNat < 16 ∧ BitVec.twoPow 8 g.val ≠ 0 ∧
    members ((BitVec.twoPow 8 g.val).setWidth 4) = [g] ∧ setOf [g] = [BitVec.twoPow 8 g.val] := by
  revert g
  decide

/-- COMMIT_NOW of one enabled group that is not draining (R38). -/
theorem exec_commitNow_of_one {s : State} (hs : s.takesFrames) (ha : s.op = .active) {g : GroupId}
    (he : (s.group g).enabled = true) (hd : (s.group g).drainList = []) : exec (.commitNow (BitVec.twoPow 8 g.val)) s =
    .next ((s.takeCommit g).reply .accepted [BitVec.twoPow 8 g.val, 0]) := by
  obtain ⟨hlt, hne, hm, hset⟩ := twoPow_lt g
  have none : setOf [] = [0] := rfl
  rw [exec_commitNow_of_set hs hne hlt, if_pos ha, hm, State.commitNow_of_idle he hd]
  simp only [State.commitNow, hset, none, List.cons_append, List.nil_append]

/-- Two states that agree in every block are equal. -/
theorem State.ext_blocks {s t : State} (h1 : s.resetLow = t.resetLow) (h2 : s.op = t.op) (h3 : s.windows = t.windows)
    (h4 : s.pool = t.pool) (h5 : s.holds = t.holds) (h6 : s.groups = t.groups) (h7 : s.drain = t.drain)
    (h8 : s.arb = t.arb) (h9 : s.portA = t.portA) (h10 : s.portB = t.portB) (h11 : s.tb = t.tb) (h12 : s.cap = t.cap)
    (h13 : s.ev = t.ev) (h14 : s.mgmt = t.mgmt) (h15 : s.inputs = t.inputs) (h16 : s.pending = t.pending) : s = t := by
  cases s
  cases t
  subst_vars
  rfl

@[simp] theorem State.committed_frame (s : State) (g : GroupId) :
    (s.committed g).resetLow = s.resetLow ∧ (s.committed g).op = s.op ∧ (s.committed g).windows = s.windows ∧
    (s.committed g).holds = s.holds ∧ (s.committed g).arb = s.arb ∧ (s.committed g).portA = s.portA ∧
    (s.committed g).portB = s.portB ∧ (s.committed g).tb = s.tb ∧ (s.committed g).mgmt = s.mgmt ∧
    (s.committed g).inputs = s.inputs ∧ (s.committed g).pending = s.pending := by
  unfold State.committed
  split <;> simp

/-- The capture unit and the causes after a commit event (R36). -/
theorem State.committed_capture (s : State) (g : GroupId) :
    (s.committed g).cap = (if (s.group g).openList = [] ∧ (s.group g).logCommits = true
      then (s.handRecord (.commit g ((s.group g).sequence + 1) s.now 0 0 false)).cap else s.cap) ∧
    (s.committed g).ev = (if (s.group g).openList = [] ∧ (s.group g).logCommits = true
      then (s.handRecord (.commit g ((s.group g).sequence + 1) s.now 0 0 false)).ev else s.ev) := by
  have log : ((s.stampCommit g).group g).logCommits = (s.group g).logCommits := by simp [State.stampCommit]
  have hand : ∀ r, ((s.stampCommit g).handRecord r).cap = (s.handRecord r).cap ∧
      ((s.stampCommit g).handRecord r).ev = (s.handRecord r).ev := fun r => by
    unfold State.handRecord
    simp only [State.stampCommit_frame]
    split <;> exact ⟨by simp, by simp [State.refreshReady, State.raise]⟩
  unfold State.committed
  by_cases ho : (s.group g).openList = []
  · rw [if_pos (by simp [ho])]
    unfold State.logEmptyCommit
    rw [log]
    by_cases hl : (s.group g).logCommits = true
    · rw [if_pos hl, if_pos ⟨ho, hl⟩, if_pos ⟨ho, hl⟩]
      exact hand _
    · rw [if_neg hl, if_neg (fun h => hl h.2), if_neg (fun h => hl h.2)]
      simp
  · rw [if_neg (by simpa using ho), if_neg (fun h => ho h.1), if_neg (fun h => ho h.1)]
    simp

/-- The level CAPTURE_READY and IRQ_N after a record is stored (R149, R158). -/
theorem State.handRecord_ready {s : State} (h : s.cap.queue.length < 32) (r : CaptureRecord) :
    (∀ i : Fin 19, (s.handRecord r).ev.causes.getLsbD i.val =
      if i.val = 18 then decide (s.cap.threshold.toNat ≤ s.cap.queue.length + 1) else s.ev.causes.getLsbD i.val) ∧
    (s.handRecord r).ev.enables = s.ev.enables ∧
    (s.handRecord r).ev.irq = decide ((s.handRecord r).ev.causes &&& (s.handRecord r).ev.enables ≠ 0) := by
  rw [State.handRecord_of_room r h]
  refine ⟨fun i => ?_, rfl, rfl⟩
  rw [State.refreshReady_bit]
  simp

theorem EventUnit.eq_of_enables {v e : EventUnit} (h : v.enables = e.enables) :
    v = { e with causes := v.causes, irq := v.irq } := by
  cases v
  cases h
  rfl

/-- Settles O38. -/
theorem commitEventEffects : Obligations.CommitEventEffects := by
  refine ⟨fun s g hs ha he hh hd ho => ?_, fun s g hs ha he hh hd ho hroom => ?_⟩
  · obtain ⟨hcap, hev⟩ := s.committed_capture g
    rw [if_neg (fun h => ho h.1)] at hcap hev
    rw [exec_commitNow_of_one hs ha he hd, State.takeCommit_of_noHolds hh]
    refine ⟨_, rfl, ?_, fun h => ?_, fun i => ?_, ?_⟩
    · refine State.ext_blocks ?_ ?_ ?_ rfl ?_ rfl rfl ?_ ?_ ?_ ?_ hcap hev ?_ ?_ ?_ <;> simp [State.reply, State.withMgmt]
    · rw [State.group_eq (s := s.committed g) (by simp), State.committed_group]
      simp [ho, State.now]
    · rw [State.entry_eq (s := s.committed g) (by simp), State.committed_entry]
    · exact (s.committed_drain g).trans (if_neg ho)
  · obtain ⟨hcap, hev⟩ := s.committed_capture g
    have hdrain : (s.committed g).drain = s.drain := (s.committed_drain g).trans (if_pos ho)
    have hpool : (s.committed g).pool = s.pool := by simp [State.committed, ho]
    rw [exec_commitNow_of_one hs ha he hd, State.takeCommit_of_noHolds hh]
    refine ⟨_, rfl, ?_, fun h => ?_, ?_, ?_, fun i hi => ?_, fun hlog => ?_⟩
    · refine State.ext_blocks ?_ ?_ ?_ hpool ?_ rfl hdrain ?_ ?_ ?_ ?_ rfl rfl ?_ ?_ ?_ <;>
        simp [State.reply, State.withMgmt]
    · rw [State.group_eq (s := s.committed g) (by simp), State.committed_group]
      by_cases e : h = g
      · subst e
        rw [if_pos rfl, if_pos rfl, if_pos ho, if_pos ho]
        generalize s.group h = x at ho hd ⊢
        cases x
        cases ho
        cases hd
        rfl
      · simp [e]
    · refine hcap.trans ?_
      by_cases hl : (s.group g).logCommits = true
      · rw [if_pos ⟨ho, hl⟩, if_pos hl, State.handRecord_of_room _ hroom]
        simp [State.now]
      · rw [if_neg (fun h => hl h.2), if_neg hl]
    · refine hev.trans ?_
      by_cases hl : (s.group g).logCommits = true
      · rw [if_pos ⟨ho, hl⟩, if_pos hl]
        have : ((s.committed g).reply .accepted [BitVec.twoPow 8 g.val, 0]).ev =
            (s.handRecord (.commit g ((s.group g).sequence + 1) s.now 0 0 false)).ev :=
          hev.trans (if_pos ⟨ho, hl⟩)
        rw [this]
        exact EventUnit.eq_of_enables (State.handRecord_ready hroom _).2.1
      · rw [if_neg (fun h => hl h.2), if_neg hl]
    · have : ((s.committed g).reply .accepted [BitVec.twoPow 8 g.val, 0]).ev = (s.committed g).ev := rfl
      rw [this, hev]
      split
      · rw [(State.handRecord_ready hroom _).1 ⟨i, by omega⟩, if_neg (by simp; omega)]
      · rfl
    · have : ((s.committed g).reply .accepted [BitVec.twoPow 8 g.val, 0]).ev = (s.committed g).ev := rfl
      rw [this, hev, if_pos ⟨ho, hlog⟩]
      obtain ⟨bits, -, irq⟩ := State.handRecord_ready hroom (.commit g ((s.group g).sequence + 1) s.now 0 0 false)
      exact ⟨(bits ⟨18, by decide⟩).trans (if_pos rfl), irq⟩

/-! ## ABORT_GROUP -/

/-- A group and its entries after ABORT_GROUP, before the retries (R22, R43). -/
def State.aborted (g : GroupId) (s : State) : State :=
  (s.withPool (freeEntries (s.group g).openList s.pool)).withGroup g { s.group g with
    openList := []
    counts := { (s.group g).counts with
      discarded := (s.group g).counts.discarded + BitVec.ofNat 32 (s.group g).openList.length } }

theorem State.abortOpen_eq {s : State} {g : GroupId} (h : (s.group g).openList ≠ []) :
    s.abortOpen g = (s.aborted g).retryHolds fun _ => true := by
  unfold State.abortOpen
  rw [if_neg (by simpa using h)]
  rfl

theorem State.abortOpen_of_empty {s : State} {g : GroupId} (h : (s.group g).openList = []) : s.abortOpen g = s := by
  unfold State.abortOpen
  rw [if_pos (by simp [h])]

theorem State.aborted_group (s : State) (g h : GroupId) : (s.aborted g).group h = if h = g then { s.group g with
    openList := []
    counts := { (s.group g).counts with
      discarded := (s.group g).counts.discarded + BitVec.ofNat 32 (s.group g).openList.length } } else s.group h := by
  unfold State.aborted
  generalize freeEntries (s.group g).openList s.pool = pool
  by_cases e : h = g
  · subst e
    rw [State.group_withGroup_same, if_pos rfl]
  · rw [State.group_withGroup_ne _ (Ne.symm e), if_neg e, State.withPool_group]

theorem State.aborted_entry (s : State) (g : GroupId) (i : PoolIndex) :
    (s.aborted g).entry i = if i ∈ (s.group g).openList then none else s.entry i :=
  (State.entry_eq (s := s.withPool (freeEntries (s.group g).openList s.pool)) (State.withGroup_frame _ _ _).2.2.2.1 i).trans
    (State.entry_freeEntries s _ i)

@[simp] theorem State.aborted_frame (s : State) (g : GroupId) :
    (s.aborted g).resetLow = s.resetLow ∧ (s.aborted g).op = s.op ∧ (s.aborted g).windows = s.windows ∧
    (s.aborted g).holds = s.holds ∧ (s.aborted g).drain = s.drain ∧ (s.aborted g).arb = s.arb ∧
    (s.aborted g).portA = s.portA ∧ (s.aborted g).portB = s.portB ∧ (s.aborted g).tb = s.tb ∧
    (s.aborted g).cap = s.cap ∧ (s.aborted g).ev = s.ev ∧ (s.aborted g).mgmt = s.mgmt ∧
    (s.aborted g).inputs = s.inputs ∧ (s.aborted g).pending = s.pending := by
  unfold State.aborted
  generalize freeEntries (s.group g).openList s.pool = pool
  simp only [State.withGroup_frame]
  exact ⟨rfl, rfl, rfl, rfl, rfl, rfl, rfl, rfl, rfl, rfl, rfl, rfl, rfl, rfl⟩

/-- An open list that is empty is discarded without effect (R43). -/
theorem Group.discard_of_empty {x : Group} (h : x.openList = []) : { x with
    openList := [], counts := { x.counts with discarded := x.counts.discarded + BitVec.ofNat 32 x.openList.length } } = x := by
  cases x
  cases h
  simp

/-- Settles O39. -/
theorem abortDiscardsTheOpenGeneration : Obligations.AbortDiscardsTheOpenGeneration := by
  intro s hs
  refine ⟨fun b hb => exec_abortGroup_of_bad_number hs hb, fun g => ⟨fun he => ?_, fun he hi => ?_⟩⟩
  · rw [exec_abortGroup_of_number hs (argBelow_ofNat (by decide) g), if_pos (.inr (by simp [he]))]
    rfl
  · rw [exec_abortGroup_of_number hs (argBelow_ofNat (by decide) g), if_neg (by simp [he, hi])]
    refine ⟨_, rfl, by simp [State.reply, State.withMgmt, byteNat], ?_⟩
    have replied : ∀ (u : State) (d : List Byte) (h : GroupId), (u.reply .accepted d).group h = u.group h := fun u d h =>
      State.group_eq (by simp) h
    rw [replied]
    by_cases ho : (s.group g).openList = []
    · rw [State.abortOpen_of_empty ho, ho]
      refine ⟨by simp, rfl, rfl, by simp, by simp, by simp, fun _ => ⟨rfl, fun h => ?_, fun i => by simp; rfl⟩⟩
      rw [replied]
      by_cases e : h = g
      · subst e
        rw [if_pos rfl]
        exact (ho ▸ Group.discard_of_empty ho).symm
      · rw [if_neg e]
    · rw [State.abortOpen_eq ho]
      have after := ((s.aborted g).retryHolds_group (fun _ => true) g).1.same
      have here := s.aborted_group g g
      rw [if_pos rfl] at here
      rw [here] at after
      refine ⟨by rw [after], by rw [after], by rw [after], by simp, by simp, by simp, fun hh => ?_⟩
      rw [State.retryHolds_of_none (by simp [hh])]
      refine ⟨?_, fun h => ?_, fun i => ?_⟩
      · refine State.ext_blocks ?_ ?_ ?_ rfl ?_ rfl ?_ ?_ ?_ ?_ ?_ ?_ ?_ rfl ?_ ?_ <;> simp
      · rw [replied, State.aborted_group]
      · rw [State.entry_eq (s := s.aborted g) (by simp), State.aborted_entry]

end Sys2Proof.Machine

/-! PROOFS. Reads of staged windows: youngest-first selection as draining over memory, and the word right after a commit. -/

namespace Sys2Proof.Machine

open Sys2Proof

/-! ## Youngest first is draining in list order (R70, R71) -/

/-- Memory's word after one entry has drained over it. -/
def Entry.drainOver (m : Lanes) (e : Entry) : Lanes := Vector.ofFn fun k => if e.mask.getLsbD k then e.data[k] else m[k]

theorem drainOver_lane (m : Lanes) (e : Entry) (k : Fin 8) :
    (e.drainOver m)[k] = if e.mask.getLsbD k then e.data[k] else m[k] := by
  simp [Entry.drainOver]

theorem youngestByte_append (l : List Entry) (e : Entry) (k : Fin 8) :
    youngestByte (l ++ [e]) k = if e.mask.getLsbD k then some e.data[k] else youngestByte l k := by
  unfold youngestByte
  rw [List.reverse_append, List.reverse_singleton, List.singleton_append, List.find?_cons]
  cases e.mask.getLsbD k <;> rfl

/-- The lane that the entries of a list leave, drained in list order, is the youngest covering byte or memory's. -/
theorem foldl_drainOver_lane (l : List Entry) (m : Lanes) (k : Fin 8) :
    (l.foldl Entry.drainOver m)[k] = (youngestByte l k).getD m[k] := by
  induction l using List.reverseRecOn with
  | nil => rfl
  | append_singleton l e ih =>
    rw [List.foldl_append, List.foldl_cons, List.foldl_nil, drainOver_lane, youngestByte_append, ih]
    cases e.mask.getLsbD k <;> rfl

theorem Lanes.ext {a b : Lanes} (h : ∀ k : Fin 8, a[k] = b[k]) : a = b := Vector.ext fun i hi => h ⟨i, hi⟩

theorem State.forwardedWord_lane (s : State) (g : GroupId) (view : ReadView) (word : WordIndex) (m : Lanes) (k : Fin 8) :
    (s.forwardedWord g view word m)[k] = (s.stagedByte g view word k).getD m[k] := by
  simp [State.forwardedWord]

/-- A word does not depend on memory exactly when every lane is staged (R72). -/
theorem State.fullyCovered_iff (s : State) (g : GroupId) (view : ReadView) (word : WordIndex) :
    s.fullyCovered g view word = true ↔ ∀ m m' : Lanes, s.forwardedWord g view word m = s.forwardedWord g view word m' := by
  unfold State.fullyCovered
  rw [List.all_eq_true]
  constructor
  · intro h m m'
    refine Lanes.ext fun k => ?_
    obtain ⟨b, hb⟩ := Option.isSome_iff_exists.mp (h k (List.mem_finRange k))
    rw [State.forwardedWord_lane, State.forwardedWord_lane, hb]
    rfl
  · intro h k _
    have lane : (s.forwardedWord g view word (Vector.replicate 8 0))[k] =
        (s.forwardedWord g view word (Vector.replicate 8 1))[k] := by rw [h]
    rw [State.forwardedWord_lane, State.forwardedWord_lane] at lane
    cases hb : s.stagedByte g view word k with
    | none =>
      rw [hb] at lane
      simp at lane
    | some b => rfl

/-- Settles O41: lane by lane. -/
theorem forwardedWordIsTheDrainedWord : Obligations.ForwardedWordIsTheDrainedWord := by
  refine ⟨fun s g word memory => ⟨Lanes.ext fun k => ?_, Lanes.ext fun k => ?_⟩, fun s g view word =>
    s.fullyCovered_iff g view word⟩
  · rw [State.forwardedWord_lane]
    exact (foldl_drainOver_lane _ _ k).symm
  · rw [State.forwardedWord_lane]
    refine Eq.trans ?_ (foldl_drainOver_lane _ _ k).symm
    refine Eq.trans ?_ (congrArg _ (foldl_drainOver_lane _ _ k).symm)
    simp only [State.stagedByte]
    cases youngestByte (s.lookup (s.group g).openList word) k <;> rfl

/-! ## Right after a commit (R83) -/

/-- An entry outside every open list: no placement touches it. -/
def State.fixedEntry (i : PoolIndex) (e : Entry) (s : State) : Prop :=
  s.entry i = some e ∧ ∀ g : GroupId, i ∉ (s.group g).openList

theorem State.lowestFree_entry {s : State} {i : PoolIndex} (h : s.lowestFree = some i) : s.entry i = none := by
  have := List.find?_some h
  simpa using this

theorem State.mergeTarget_mem {s : State} {g : GroupId} {word : WordIndex} {i : PoolIndex}
    (h : s.mergeTarget g word = some i) : i ∈ (s.group g).openList := by
  unfold State.mergeTarget at h
  split at h
  · cases h
  · exact List.mem_of_find?_eq_some h

theorem State.fixedEntry.of_same {s t : State} {i : PoolIndex} {e : Entry} (h : s.fixedEntry i e)
    (pool : t.pool = s.pool) (groups : t.groups = s.groups) : t.fixedEntry i e :=
  ⟨(State.entry_eq pool i).trans h.1, fun g => by rw [State.group_eq groups]; exact h.2 g⟩

theorem State.place_fixedEntry {s : State} {i : PoolIndex} {e : Entry} (h : s.fixedEntry i e) (p : Port) (g : GroupId)
    (w : WordIndex) (m : LaneSet) (d : Lanes) : (s.place p g w m d).1.fixedEntry i e := by
  obtain ⟨he, ho⟩ := h
  unfold State.place
  repeat' split
  · rename_i j hj
    have hne : i ≠ j := fun k => ho g (k ▸ State.mergeTarget_mem hj)
    refine ⟨?_, fun x => ?_⟩
    · rw [State.entry_eq (s := s.withPool (updateEntries [j] (Entry.mergeWrite p m d) s.pool)) (by simp),
        State.entry_updateEntries, if_neg (by simpa using hne)]
      exact he
    · rw [State.countGroup_group]
      generalize updateEntries [j] (Entry.mergeWrite p m d) s.pool = pool
      split
      · exact ho x
      · exact ho x
  · rename_i j hj
    have free : s.entry j = none := by
      unfold State.allocationIndex at hj
      split at hj
      · exact State.lowestFree_entry hj
      · cases hj
    have hne : j ≠ i := fun k => by rw [k, he] at free; cases free
    refine ⟨?_, fun x => ?_⟩
    · rw [State.entry_eq (s := s.withPool (s.pool.set j (some (Entry.allocate p g w m d)))) (by simp),
        State.entry_setPool, if_neg hne]
      exact he
    · generalize s.pool.set _ _ _ = pool
      by_cases k : x = g
      · subst k
        rw [State.group_withGroup_same]
        simpa using ⟨ho x, Ne.symm hne⟩
      · rw [State.group_withGroup_ne _ (Ne.symm k), State.withPool_group]
        exact ho x
  · refine ⟨(State.entry_eq (by simp) i).trans he, fun x => ?_⟩
    rw [State.raise_group, State.countGroup_group]
    split
    · exact ho x
    · exact ho x
  · exact ⟨he, ho⟩

theorem State.retryHold_fixedEntry {s : State} {i : PoolIndex} {e : Entry} (h : s.fixedEntry i e) (x : Hold) :
    (s.retryHold x).1.fixedEntry i e := by
  unfold State.retryHold
  split
  · rename_i w m d _ _ _
    have hp := State.place_fixedEntry h x.port x.group w m d
    dsimp only
    split
    · exact hp.of_same (by simp) (by simp)
    · exact hp.of_same (by simp) (by simp)
    · exact hp.of_same (by simp) (by simp)
    · exact h
  · exact h

theorem State.retryAll_fixedEntry {i : PoolIndex} {e : Entry} (holds : List Hold) : ∀ s : State, s.fixedEntry i e →
    (State.retryAll holds s).1.fixedEntry i e := by
  induction holds with
  | nil => exact fun s h => h
  | cons x holds ih => exact fun s h => ih _ (State.retryHold_fixedEntry h x)

/-- A retry point leaves every entry outside the open lists (R16, R17). -/
theorem State.retryHolds_fixedEntry {s : State} {i : PoolIndex} {e : Entry} (h : s.fixedEntry i e)
    (concerned : Hold → Bool) : (s.retryHolds concerned).fixedEntry i e :=
  (State.retryAll_fixedEntry (s.holds.filter concerned) s h).of_same (t := s.retryHolds concerned)
    (by simp [State.retryHolds]) (by simp [State.retryHolds])

/-- An entry as a commit of a sequence number leaves it (R19). -/
def Entry.queuedUnder (n : BitVec 16) (e : Entry) : Entry := { e with state := .queued, gen := .draining n }

theorem youngestByte_map (n : BitVec 16) (l : List Entry) (k : Fin 8) :
    youngestByte (l.map (Entry.queuedUnder n)) k = youngestByte l k := by
  induction l using List.reverseRecOn with
  | nil => rfl
  | append_singleton l e ih =>
    rw [List.map_append, List.map_singleton, youngestByte_append, youngestByte_append, ih]
    rfl

/-- A lookup in a list whose entries a commit has moved on. -/
theorem State.lookup_of_committed {s t : State} {l : List PoolIndex} {n : BitVec 16}
    (h : ∀ i ∈ l, t.entry i = (s.entry i).map (Entry.queuedUnder n)) (word : WordIndex) :
    t.lookup l word = (s.lookup l word).map (Entry.queuedUnder n) := by
  unfold State.lookup
  induction l with
  | nil => rfl
  | cons i l ih =>
    have rest := ih fun j hj => h j (List.mem_cons_of_mem _ hj)
    rw [List.filterMap_cons, List.filterMap_cons, h i List.mem_cons_self]
    cases s.entry i with
    | none => exact rest
    | some e =>
      simp only [Option.map_some, List.filter_cons, rest]
      have : (e.queuedUnder n).word = e.word := rfl
      rw [this]
      split <;> rfl

/-- Settles O40: the draining list right after the commit holds the entries of the open list right before it. -/
theorem commitShowsThePendingWord : Obligations.CommitShowsThePendingWord := by
  intro s t g word memory hs ha he hl hd ht
  rw [exec_commitNow_of_one hs ha he hd] at ht
  cases ht
  refine Lanes.ext fun k => ?_
  rw [State.forwardedWord_lane, State.forwardedWord_lane]
  have drain : (((s.takeCommit g).reply .accepted [BitVec.twoPow 8 g.val, 0]).group g).drainList = (s.group g).openList :=
    (State.takeCommit_group hd).1.2.2.2.2.1
  have entries : ∀ i ∈ (s.group g).openList, ((s.takeCommit g).reply .accepted [BitVec.twoPow 8 g.val, 0]).entry i =
      (s.entry i).map (Entry.queuedUnder ((s.group g).sequence + 1)) := fun i hi => by
    obtain ⟨-, isOpen, -, -⟩ := hl g
    obtain ⟨e, hie, hg, -⟩ := (isOpen i).mp hi
    have fixed : (s.committed g).fixedEntry i (e.queuedUnder ((s.group g).sequence + 1)) := by
      refine ⟨by rw [State.committed_entry, if_pos hi, hie]; rfl, fun h => ?_⟩
      rw [State.committed_group]
      split
      · simp
      · intro hm
        obtain ⟨-, isOpen', -, -⟩ := hl h
        obtain ⟨e', hie', hg', -⟩ := (isOpen' i).mp hm
        rw [hie] at hie'
        cases hie'
        exact absurd (hg'.symm.trans hg) ‹_›
    have after := (State.retryHolds_fixedEntry fixed fun h => decide (h.group = g)).1
    rw [← State.takeCommit_eq] at after
    rw [State.entry_eq (s := s.takeCommit g) (by simp), after, hie]
    rfl
  simp only [State.stagedByte]
  rw [drain, hd, State.lookup_of_committed entries, youngestByte_map]
  have none : youngestByte (s.lookup [] word) k = none := rfl
  rw [none, Option.or_none]

end Sys2Proof.Machine

/-! PROOFS. Placements at the staging table: what each of the four outcomes leaves in the table, at the port and in the
causes. -/

namespace Sys2Proof.Machine

open Sys2Proof

/-! ## The table after a placement -/

theorem Entry.mergeWrite_eq (p : Port) (m : LaneSet) (d : Lanes) (e : Entry) : e.mergeWrite p m d = e.joined p m d := by
  unfold Entry.mergeWrite Entry.joined
  rw [saturatingSucc_byte]
  rfl

theorem Entry.allocate_eq (p : Port) (g : GroupId) (word : WordIndex) (m : LaneSet) (d : Lanes) :
    Entry.allocate p g word m d = Entry.opened p g word m d := rfl

section
variable {s : State} {g : GroupId} {word : WordIndex} {i : PoolIndex} (p : Port) (m : LaneSet) (d : Lanes)

/-- The table after a merge (R8). -/
theorem State.place_merges {e : Entry} (h : s.mergeTarget g word = some i) (he : s.entry i = some e) :
    (s.place p g word m d).2 = .merged ∧ (s.place p g word m d).1.ev = s.ev ∧
    (s.place p g word m d).1.entry i = some (e.joined p m d) ∧
    (∀ j, j ≠ i → (s.place p g word m d).1.entry j = s.entry j) ∧
    ∀ x : GroupId, (s.place p g word m d).1.group x = if x = g then { s.group x with counts := { (s.group x).counts with
      merged := (s.group x).counts.merged + 1 } } else s.group x := by
  rw [State.place_of_merge p m d h]
  have entry : ∀ j, ((s.withPool (updateEntries [i] (Entry.mergeWrite p m d) s.pool)).countGroup g fun c =>
      { c with merged := c.merged + 1 }).entry j = if j ∈ [i] then (s.entry j).map (Entry.mergeWrite p m d) else s.entry j :=
    fun j => by rw [← State.entry_updateEntries]; exact State.entry_eq (by simp) j
  refine ⟨rfl, by simp, ?_, fun j hj => ?_, fun x => ?_⟩
  · rw [entry, if_pos (by simp), he, Option.map_some, Entry.mergeWrite_eq]
  · rw [entry, if_neg (by simpa using hj)]
  · generalize updateEntries [i] (Entry.mergeWrite p m d) s.pool = pool
    rw [State.countGroup_group]
    rfl

/-- The table after an allocation (R4, R9, R10). -/
theorem State.place_allocates (h : s.mergeTarget g word = none)
    (hl : (s.group g).openList.length < (s.group g).entryLimit.toNat) (hi : s.lowestFree = some i) :
    (s.place p g word m d).2 = .allocated ∧ (s.place p g word m d).1.ev = s.ev ∧
    (s.place p g word m d).1.entry i = some (Entry.opened p g word m d) ∧
    (∀ j, j ≠ i → (s.place p g word m d).1.entry j = s.entry j) ∧
    ∀ x : GroupId, (s.place p g word m d).1.group x = if x = g then { s.group x with
      openList := (s.group x).openList ++ [i]
      counts := { (s.group x).counts with allocated := (s.group x).counts.allocated + 1 } } else s.group x := by
  rw [State.place_of_allocate p m d h hl hi]
  have entry : ∀ (x : Group) j, ((s.withPool (s.pool.set i (some (Entry.allocate p g word m d)))).withGroup g x).entry j =
      if i = j then some (Entry.allocate p g word m d) else s.entry j := fun x j => by
    rw [← State.entry_setPool]
    exact State.entry_eq (by simp) j
  refine ⟨rfl, by simp, ?_, fun j hj => ?_, fun x => ?_⟩
  · rw [entry, if_pos rfl, Entry.allocate_eq]
  · rw [entry, if_neg (Ne.symm hj)]
  · generalize s.pool.set _ _ _ = pool
    by_cases e : x = g
    · subst e; rw [State.group_withGroup_same, if_pos rfl]
    · rw [State.group_withGroup_ne _ (Ne.symm e), if_neg e, State.withPool_group]

/-- The table after a rejection (R14). -/
theorem State.place_rejects (h : s.mergeTarget g word = none) (ha : s.allocationIndex g = none)
    (hp : (s.group g).policy = .reject) :
    (s.place p g word m d).2 = .rejected ∧ (s.place p g word m d).1.pool = s.pool ∧
    (s.place p g word m d).1.ev.causes.getLsbD 12 = true ∧
    ∀ x : GroupId, (s.place p g word m d).1.group x = if x = g then { s.group x with counts := { (s.group x).counts with
      rejections := (s.group x).counts.rejections + 1 } } else s.group x := by
  rw [State.place_of_reject p m d h ha hp]
  refine ⟨rfl, by simp, State.raise_sets _ .stageReject (by decide), fun x => ?_⟩
  rw [State.raise_group, State.countGroup_group]

end

/-! ## The port of an answered head -/

/-- A placed write at its port, once the port has moved on (R102, R105). -/
theorem State.answerPlaced_moveOn {s u : State} {p : Port} {r : BusRequest} {cls : Classification} {place : HeadPlace}
    (merged : Bool) (ho : queueOrdered (s.port p).queue = true) (hh : s.head p = some ⟨r, .head cls place⟩)
    (hu : ∀ q, u.port q = s.port q) :
    queueMoves r (.head cls place) (.answered ⟨.okay, none⟩) (s.port p).queue
      (((u.answerPlaced p cls merged).moveOn p).port p).queue ∧
    (((u.answerPlaced p cls merged).moveOn p).port p).counts.stagedPlaced = (s.port p).counts.stagedPlaced + 1 ∧
    (((u.answerPlaced p cls merged).moveOn p).port p).counts.merged =
      (if merged then (s.port p).counts.merged + 1 else (s.port p).counts.merged) ∧
    (((u.answerPlaced p cls merged).moveOn p).port p).lastError = (s.port p).lastError ∧
    ∀ q : Port, q ≠ p → ((u.answerPlaced p cls merged).moveOn p).port q = s.port q := by
  have port := State.answerPlaced_port u p p cls merged
  rw [if_pos rfl, hu] at port
  have moved := State.moveOn_same (u.answerPlaced p cls merged) p
  obtain ⟨n, counts⟩ := moved.counts
  refine ⟨State.moveOn_queueMoves ho hh rfl (by rw [port]), by rw [counts, port], by rw [counts, port],
    by rw [moved.lastError, port], fun q hq => ?_⟩
  rw [State.moveOn_other _ hq, State.answerPlaced_port, if_neg hq, hu]

/-- A write answered ERROR at its port, once the port has moved on (R102, R110, R111). -/
theorem State.answerRefused_moveOn {s u : State} {p : Port} {r : BusRequest} {cls : Classification} {place : HeadPlace}
    (reason : ErrorReason) (ho : queueOrdered (s.port p).queue = true) (hh : s.head p = some ⟨r, .head cls place⟩)
    (hu : ∀ q, u.port q = s.port q) (hn : u.now = s.now) :
    queueMoves r (.head cls place) (.answered ⟨.error, none⟩) (s.port p).queue
      (((u.answerRefused p cls r reason).moveOn p).port p).queue ∧
    (∃ n, (((u.answerRefused p cls r reason).moveOn p).port p).counts =
      { (s.port p).counts.withError reason with forwarded := ((s.port p).counts.withError reason).forwarded + n }) ∧
    (((u.answerRefused p cls r reason).moveOn p).port p).lastError = some ⟨reason, r.kind, r.word, r.tag, s.now⟩ ∧
    ∀ q : Port, q ≠ p → ((u.answerRefused p cls r reason).moveOn p).port q = s.port q := by
  have port := State.answerRefused_port u p p cls r reason
  rw [if_pos rfl, hu, hn] at port
  have moved := State.moveOn_same (u.answerRefused p cls r reason) p
  obtain ⟨n, counts⟩ := moved.counts
  refine ⟨State.moveOn_queueMoves ho hh rfl (by rw [port]), ⟨n, by rw [counts, port]⟩, by rw [moved.lastError, port],
    fun q hq => ?_⟩
  rw [State.moveOn_other _ hq, State.answerRefused_port, if_neg hq, hu]

/-! ## STAGED_WRITE_PLACEMENT -/

section
variable {s : State} {p : Port} {word : WordIndex} {m : LaneSet} {d : Lanes} {tag : Tag} {cls : Classification}
  {g : GroupId} {v : ReadView}

theorem State.placeHead_of_merged (hh : s.head p = some ⟨.write word m d tag, .head cls (.passage false)⟩)
    (hr : cls.route = .staged g v) (h : (s.place p g word m d).2 = .merged) :
    s.placeHead p = ((s.place p g word m d).1.answerPlaced p cls true).moveOn p := by
  simp only [State.placeHead, hh, hr, Bool.false_eq_true, if_false, h]

theorem State.placeHead_of_allocated (hh : s.head p = some ⟨.write word m d tag, .head cls (.passage false)⟩)
    (hr : cls.route = .staged g v) (h : (s.place p g word m d).2 = .allocated) :
    s.placeHead p = ((s.place p g word m d).1.answerPlaced p cls false).moveOn p := by
  simp only [State.placeHead, hh, hr, Bool.false_eq_true, if_false, h]

theorem State.placeHead_of_rejected (hh : s.head p = some ⟨.write word m d tag, .head cls (.passage false)⟩)
    (hr : cls.route = .staged g v) (h : (s.place p g word m d).2 = .rejected) : s.placeHead p =
    ((s.place p g word m d).1.answerRefused p cls (.write word m d tag) .rejectedFull).moveOn p := by
  simp only [State.placeHead, hh, hr, Bool.false_eq_true, if_false, h]

theorem State.placeHead_of_heldBack (hh : s.head p = some ⟨.write word m d tag, .head cls (.passage false)⟩)
    (hr : cls.route = .staged g v) (h : (s.place p g word m d).2 = .heldBack) : s.placeHead p =
    (s.progressFirst p Progress.isHead (.head cls .held)).withHolds
      (s.holds ++ [⟨p, g, s.tb.usClock, (s.group g).holdLimit⟩]) := by
  simp only [State.placeHead, hh, hr, Bool.false_eq_true, if_false, h]

theorem State.placeHead_of_marked (hh : s.head p = some ⟨.write word m d tag, .head cls (.passage true)⟩)
    (hr : cls.route = .staged g v) :
    s.placeHead p = (s.answerRefused p cls (.write word m d tag) .discardedByReset).moveOn p := by
  simp only [State.placeHead, hh, hr, if_true]

end

theorem State.place_ports (s : State) (p : Port) (g : GroupId) (w : WordIndex) (m : LaneSet) (d : Lanes) (q : Port) :
    (s.place p g w m d).1.port q = s.port q := by simp

theorem State.place_now (s : State) (p : Port) (g : GroupId) (w : WordIndex) (m : LaneSet) (d : Lanes) :
    (s.place p g w m d).1.now = s.now := by simp [State.now]

/-- Settles O30: the two outcomes that place the write, in the table and at the port. -/
theorem placementMergesOrAllocates : Obligations.PlacementMergesOrAllocates := by
  refine ⟨?_, ?_⟩
  · intro s p word m d tag cls g v i e pre post hr ho hh hv hm hl hp he hw
    obtain ⟨done, -, here, others, groups⟩ :=
      State.place_merges p m d (State.mergeTarget_of_first hm hl hp he hw) he
    obtain ⟨moves, placed, merged, -, ports⟩ := State.answerPlaced_moveOn (u := (s.place p g word m d).1) true ho hh
      (s.place_ports p g word m d)
    have row : exec (.stagedWritePlacement p) s = .next (s.placeHead p) := congrArg Host.Outcome.next (State.awake_of_high hr _)
    rw [row, State.placeHead_of_merged hh hv done]
    refine ⟨_, rfl, ?_, fun j hj => ?_, fun h => ?_, moves, placed, merged, by simp, by simp, by simp, by simp, by simp, ports⟩
    · exact (State.entry_eq (by simp) i).trans here
    · exact (State.entry_eq (by simp) j).trans (others j hj)
    · exact (State.group_eq (by simp) h).trans (groups h)
  · intro s p word m d tag cls g v i hr ho hh hv hn hl hi hlow
    obtain ⟨done, -, here, others, groups⟩ :=
      State.place_allocates p m d (State.mergeTarget_of_none hn) hl (State.lowestFree_of_lowest hi hlow)
    obtain ⟨moves, placed, merged, -, ports⟩ := State.answerPlaced_moveOn (u := (s.place p g word m d).1) false ho hh
      (s.place_ports p g word m d)
    have row : exec (.stagedWritePlacement p) s = .next (s.placeHead p) := congrArg Host.Outcome.next (State.awake_of_high hr _)
    rw [row, State.placeHead_of_allocated hh hv done]
    refine ⟨_, rfl, ?_, fun j hj => ?_, fun h => ?_, moves, placed, merged, by simp, by simp, by simp, by simp, by simp, ports⟩
    · exact (State.entry_eq (by simp) i).trans here
    · exact (State.entry_eq (by simp) j).trans (others j hj)
    · exact (State.group_eq (by simp) h).trans (groups h)

/-- A port that brings no head takes its causes and records as they are, outside ACTIVE (R91, R113). -/
theorem State.moveOn_quiet {s : State} (h : s.op ≠ .active) (p : Port) :
    (s.moveOn p).cap = s.cap ∧ (s.moveOn p).ev = s.ev := State.bringHeads_quiet _ h

/-- The enables through the recordings of an operation (R157). -/
theorem Recordings.keeps_enables {s t : State} (h : Recordings s t) : t.ev.enables = s.ev.enables :=
  h.keeps (P := fun u => u.ev.enables = s.ev.enables) (fun _ _ hu hr => hr.keeps_enables.trans hu) rfl

/-- A port that moves on keeps every cause of the other blocks. -/
theorem State.moveOn_bit (s : State) (p : Port) {i : Nat} (h : i < 17) :
    (s.moveOn p).ev.causes.getLsbD i = s.ev.causes.getLsbD i :=
  s.moveOn_causesStand (but := [17, 18]) (by decide) (by decide) p ⟨i, by omega⟩ (by simp; omega)

/-- The queue of a head that becomes held (R15, R108). -/
theorem State.held_queue {s : State} {p : Port} {r : BusRequest} {cls : Classification} {place new : HeadPlace}
    (hh : s.head p = some ⟨r, .head cls place⟩) : ∃ pre post : List QueuedRequest,
    (s.port p).queue = pre ++ ⟨r, .head cls place⟩ :: post ∧
      setFirst Progress.isHead (.head cls new) (s.port p).queue = pre ++ ⟨r, .head cls new⟩ :: post := by
  obtain ⟨pre, post, hq, hpre⟩ := State.head_split hh
  exact ⟨pre, post, hq, by rw [hq]; exact setFirst_of_split _ rfl hpre⟩

/-- Settles O31: the two outcomes that do not place the write, and the write a reset overtook. -/
theorem unplacedWritesAreAnsweredOrHeld : Obligations.UnplacedWritesAreAnsweredOrHeld := by
  refine ⟨fun s p word m d tag cls g v hr ho hh hv hn hf => ⟨fun hpol => ?_, fun hpol => ?_⟩, ?_⟩
  · obtain ⟨done, pool, cause, groups⟩ :=
      State.place_rejects p m d (State.mergeTarget_of_none hn) (State.allocationIndex_of_full hf) hpol
    obtain ⟨moves, ⟨n, counts⟩, error, -⟩ := State.answerRefused_moveOn (u := (s.place p g word m d).1) .rejectedFull ho hh
      (s.place_ports p g word m d) (s.place_now p g word m d)
    have row : exec (.stagedWritePlacement p) s = .next (s.placeHead p) := congrArg Host.Outcome.next (State.awake_of_high hr _)
    rw [row, State.placeHead_of_rejected hh hv done]
    refine ⟨_, rfl, ?_, by simp, by simp, by simp, by simp, by simp, fun h => ?_, ?_, error, by rw [counts]; rfl, moves⟩
    · exact (by simp : _ = (s.place p g word m d).1.pool).trans pool
    · exact (State.group_eq (by simp) h).trans (groups h)
    · rw [State.moveOn_bit _ _ (by decide)]
      simpa using cause
  · have done := congrArg Prod.snd (State.place_of_hold p m d (State.mergeTarget_of_none hn)
      (State.allocationIndex_of_full hf) hpol)
    have row : exec (.stagedWritePlacement p) s = .next (s.placeHead p) := congrArg Host.Outcome.next (State.awake_of_high hr _)
    have port : ∀ l, (((s.progressFirst p Progress.isHead (.head cls .held)).withHolds l).port p) =
        { s.port p with queue := setFirst Progress.isHead (.head cls .held) (s.port p).queue } := fun l => by
      rw [State.withHolds_port, State.progressFirst_port, if_pos rfl]
    rw [row, State.placeHead_of_heldBack hh hv done]
    obtain ⟨pre, post, before, after⟩ := State.held_queue (new := .held) hh
    refine ⟨_, rfl, ?_, ?_, pre, post, before, ?_⟩
    · rw [port]
      cases p <;> rfl
    · rw [port]
    · rw [port]
      exact after
  · intro s p word m d tag cls g v hr ho hh hv
    obtain ⟨moves, ⟨n, counts⟩, error, -⟩ := State.answerRefused_moveOn (u := s) .discardedByReset ho hh (fun _ => rfl) rfl
    have row : exec (.stagedWritePlacement p) s = .next (s.placeHead p) := congrArg Host.Outcome.next (State.awake_of_high hr _)
    rw [row, State.placeHead_of_marked hh hv]
    refine ⟨_, rfl, by simp, by simp, by simp, by simp, by simp, by simp, fun ha => ?_, fun i hi => ?_, ?_, error,
      by rw [counts]; rfl, moves⟩
    · obtain ⟨hc, he⟩ := State.moveOn_quiet (s := s.answerRefused p cls (.write word m d tag) .discardedByReset) (by simpa) p
      exact ⟨hc.trans (by simp), he.trans (by simp)⟩
    · rw [State.moveOn_bit _ _ hi]
      simp
    · rw [(State.moveOn_records _ _).keeps_enables]
      simp

/-! ## HOLD_LIMIT_EXPIRY and DRAIN_BUDGET_EXPIRY -/

/-- A list with one element that meets a test. -/
theorem find_middle {α : Type} {test : α → Bool} {pre post : List α} {x : α} (hx : test x = true)
    (hpre : ∀ y ∈ pre, test y = false) : (pre ++ x :: post).find? test = some x :=
  List.find?_eq_some_iff_append.mpr ⟨hx, pre, post, rfl, fun y hy => by simp [hpre y hy]⟩

theorem filter_middle {α : Type} {test : α → Bool} {pre post : List α} {x : α} (hx : test x = false)
    (hrest : ∀ y ∈ pre ++ post, test y = true) : (pre ++ x :: post).filter test = pre ++ post := by
  have h1 := List.filter_eq_self.mpr fun y (hy : y ∈ pre) => hrest y (List.mem_append_left _ hy)
  have h2 := List.filter_eq_self.mpr fun y (hy : y ∈ post) => hrest y (List.mem_append_right _ hy)
  rw [List.filter_append, List.filter_cons_of_neg (by simp [hx]), h1, h2]

theorem map_middle {α : Type} {f : α → α} {pre post : List α} {x : α} (hrest : ∀ y ∈ pre ++ post, f y = y) :
    (pre ++ x :: post).map f = pre ++ f x :: post := by
  have same : ∀ l : List α, (∀ y ∈ l, f y = y) → l.map f = l := fun l h => by
    rw [List.map_congr_left h, List.map_id']
  rw [List.map_append, List.map_cons, same pre fun y hy => hrest y (List.mem_append_left _ hy),
    same post fun y hy => hrest y (List.mem_append_right _ hy)]

/-- Settles O33. -/
theorem holdsAndBudgetsExpire : Obligations.HoldsAndBudgetsExpire := by
  refine ⟨fun s p h pre post r cls hr hq hp hrest ho hh => ?_, fun s d pre post hr hq hrest => ?_⟩
  · have row : exec (.holdLimitExpiry p) s = .next (s.expireHold p) := congrArg Host.Outcome.next (State.awake_of_high hr _)
    have found : s.holds.find? (fun h => decide (h.port = p)) = some h := by
      rw [hq]
      exact find_middle (by simp [hp]) fun y hy => by simpa using hrest y (List.mem_append_left _ hy)
    refine ⟨fun h0 hle => ?_, fun hn => ?_⟩
    · have due : s.holdExpired h = true := decide_eq_true ⟨h0, hle⟩
      have eq : s.expireHold p = ((((s.dropHold p).answerRefused p cls r .holdTimeout).countGroup h.group fun c =>
          { c with holdTimeouts := c.holdTimeouts + 1 }).raise .holdTimeout).moveOn p := by
        simp only [State.expireHold, found, due, if_true, hh]
      have port := State.answerRefused_port (s.dropHold p) p p cls r .holdTimeout
      rw [row, eq]
      generalize hu : (((s.dropHold p).answerRefused p cls r .holdTimeout).countGroup h.group fun c =>
          { c with holdTimeouts := c.holdTimeouts + 1 }).raise .holdTimeout = u
      have same : u.port p = { s.port p with
          queue := setFirst Progress.isHead (.answered ⟨.error, none⟩) (s.port p).queue
          lastError := some ⟨.holdTimeout, r.kind, r.word, r.tag, s.now⟩
          counts := (s.port p).counts.withError .holdTimeout } := by
        rw [if_pos rfl] at port
        subst hu
        simpa [State.now] using port
      have moved := State.moveOn_same u p
      obtain ⟨n, counts⟩ := moved.counts
      refine ⟨_, rfl, ?_, ?_, ?_, ?_, ?_, ?_, fun g => ?_, ?_, ?_, ?_, ?_⟩
      · have holds : (u.moveOn p).holds = u.holds := by simp
        rw [holds, ← hu]
        simp only [State.raise_frame, State.countGroup_frame, State.answerRefused_frame]
        simp only [State.dropHold, State.withHolds_holds, hq]
        exact filter_middle (by simp [hp]) fun y hy => by simpa using hrest y hy
      · subst hu; simp
      · subst hu; simp
      · subst hu; simp
      · subst hu; simp
      · subst hu; simp
      · rw [State.moveOn_group, ← hu, State.raise_group, State.countGroup_group]
        simp
      · rw [State.moveOn_bit _ _ (by decide), ← hu]
        exact State.raise_sets _ .holdTimeout (by decide)
      · rw [moved.lastError, same]
        rfl
      · rw [counts, same]
        rfl
      · exact State.moveOn_queueMoves ho hh rfl (by rw [same])
    · rw [row]
      have notDue : s.holdExpired h = false := decide_eq_false fun k =>
        hn.elim k.1 fun hlt => Nat.not_lt.mpr k.2 hlt
      simp only [State.expireHold, found, notDue, Bool.false_eq_true, if_false]
  · have row : exec (.drainBudgetExpiry d.group) s = .next (s.expireBudget d.group) :=
      congrArg Host.Outcome.next (State.awake_of_high hr _)
    have others : ∀ x ∈ pre ++ post, s.becomesLate d.group x = false := fun x hx => by
      simp [State.becomesLate, hrest x hx]
    refine ⟨fun h0 hle hl => ?_, fun hn => ?_⟩
    · have late : s.becomesLate d.group d = true := by
        have : s.budgetExpired d = true := decide_eq_true ⟨h0, hle⟩
        simp [State.becomesLate, hl, this]
      have queue : (s.drain.queue.map fun x => if s.becomesLate d.group x then { x with late := true } else x) =
          pre ++ { d with late := true } :: post := by
        rw [hq, map_middle fun x hx => by rw [others x hx]; rfl, if_pos late]
      have eq : s.expireBudget d.group = (((s.withDrain { s.drain with
          queue := pre ++ { d with late := true } :: post }).countGroup d.group fun c =>
          { c with lateDrains := c.lateDrains + 1 }).raise (.drainLate d.group)).refreshEscalated := by
        unfold State.expireBudget
        rw [if_pos, queue]
        rw [hq]
        simp [late]
      rw [row, eq]
      refine ⟨_, rfl, ?_, fun g => ?_, rfl, rfl⟩
      · refine State.ext_blocks ?_ ?_ ?_ ?_ ?_ rfl ?_ ?_ ?_ ?_ ?_ ?_ rfl ?_ ?_ ?_ <;> simp [State.refreshEscalated]
      · refine (State.group_eq (State.refreshEscalated_frame _).2.2.2.2.2.1 g).trans ?_
        rw [State.raise_group, State.countGroup_group]
        rfl
    · have late : s.becomesLate d.group d = false := by
        rcases hn with h | h | h
        · simp [State.becomesLate, State.budgetExpired, h]
        · have : s.budgetExpired d = false := decide_eq_false fun k => Nat.not_lt.mpr k.2 h
          simp [State.becomesLate, this]
        · simp [State.becomesLate, h]
      rw [row]
      unfold State.expireBudget
      rw [if_neg]
      have none : ∀ x ∈ s.drain.queue, s.becomesLate d.group x = false := fun x hx => by
        rw [hq, List.mem_append, List.mem_cons] at hx
        rcases hx with hx | rfl | hx
        · exact others x (List.mem_append_left _ hx)
        · exact late
        · exact others x (List.mem_append_right _ hx)
      rw [List.any_eq_true]
      rintro ⟨x, hx, h⟩
      rw [none x hx] at h
      cases h

end Sys2Proof.Machine

/-! PROOFS. Requests accepted and taken: becoming the head, waiting on the bus, the response taken; the hits of the heads. -/

namespace Sys2Proof.Machine

open Sys2Proof

/-! ## Becoming the head -/

section
variable {s : State} {p : Port}

/-- A read of a staged window that is fully covered is answered as it becomes the head (R72). -/
theorem State.enterHead_of_covered {word : WordIndex} {tag : Tag} {g : GroupId} {v : ReadView}
    (hr : (s.classify p word).route = .staged g v) (h : s.fullyCovered g v word = true) :
    s.enterHead p (.read word tag) = ((s.progressFirst p Progress.isBehind
      (.answered ⟨.okay, some (s.forwardedWord g v word Lanes.zero)⟩)).countPort p fun c =>
        { c with forwarded := c.forwarded + 1 }).hitFor p (.read word tag) (s.classify p word) (BitVec.allOnes 8)
        (s.forwardedWord g v word Lanes.zero) false := by
  simp only [State.enterHead, BusRequest.word, hr, h, if_true]

/-- Every other read waits at the arbiter as the head (R103). -/
theorem State.enterHead_of_read {word : WordIndex} {tag : Tag}
    (h : ∀ g v, (s.classify p word).route = .staged g v → s.fullyCovered g v word = false) :
    s.enterHead p (.read word tag) = s.progressFirst p Progress.isBehind (.head (s.classify p word) .waiting) := by
  cases hr : (s.classify p word).route with
  | pass => simp only [State.enterHead, BusRequest.word, hr]
  | staged g v => simp only [State.enterHead, BusRequest.word, hr, h g v hr, Bool.false_eq_true, if_false]

/-- A pass write waits at the arbiter as the head, and gives its hit (R103, R113). -/
theorem State.enterHead_of_pass {word : WordIndex} {m : LaneSet} {d : Lanes} {tag : Tag}
    (hr : (s.classify p word).route = .pass) : s.enterHead p (.write word m d tag) =
    (s.progressFirst p Progress.isBehind (.head (s.classify p word) .waiting)).hitFor p (.write word m d tag)
      (s.classify p word) m d false := by
  simp only [State.enterHead, BusRequest.word, hr]

/-- A staged write is in passage of its window as the head, and gives its hit (R84, R103, R113). -/
theorem State.enterHead_of_staged {word : WordIndex} {m : LaneSet} {d : Lanes} {tag : Tag} {g : GroupId} {v : ReadView}
    (hr : (s.classify p word).route = .staged g v) : s.enterHead p (.write word m d tag) =
    ((s.progressFirst p Progress.isBehind (.head (s.classify p word) (.passage false))).passage
      (s.classify p word).window (· + 1)).hitFor p (.write word m d tag) (s.classify p word) m d false := by
  simp only [State.enterHead, BusRequest.word, hr]

theorem State.bringHeads_of_settled (n : Nat) (h : (s.head p).isSome = true ∨ s.firstRequest p Progress.isBehind = none) :
    s.bringHeads p n = s := by
  cases n with
  | zero => rfl
  | succ n =>
    unfold State.bringHeads
    split
    · rename_i h1 h2
      rcases h with h | h
      · rw [h1] at h; cases h
      · rw [h2] at h; cases h
    · rfl

end

/-- What becoming the head does to the oldest BEHIND request of the port (R102, R103). -/
def State.enteredAs (s : State) (p : Port) (r : BusRequest) : Progress :=
  match r, (s.classify p r.word).route with
  | .write _ _ _ _, .pass => .head (s.classify p r.word) .waiting
  | .write _ _ _ _, .staged _ _ => .head (s.classify p r.word) (.passage false)
  | .read _ _, .pass => .head (s.classify p r.word) .waiting
  | .read word _, .staged g v =>
    if s.fullyCovered g v word then .answered ⟨.okay, some (s.forwardedWord g v word Lanes.zero)⟩
    else .head (s.classify p r.word) .waiting

theorem State.enteredAs_place (s : State) (p : Port) (r : BusRequest) :
    (s.enteredAs p r).isBehind = false := by
  unfold State.enteredAs
  repeat' split
  all_goals rfl

/-- The queue after a request became the head. -/
theorem State.enterHead_queue (s : State) (p : Port) (r : BusRequest) :
    ((s.enterHead p r).port p).queue = setFirst Progress.isBehind (s.enteredAs p r) (s.port p).queue := by
  cases r with
  | write word m d tag =>
    cases hr : (s.classify p word).route with
    | pass =>
      rw [State.enterHead_of_pass hr, State.hitFor_port, State.progressFirst_port, if_pos rfl]
      simp only [State.enteredAs, BusRequest.word, hr]
    | staged g v =>
      rw [State.enterHead_of_staged hr, State.hitFor_port, State.passage_port, State.progressFirst_port, if_pos rfl]
      simp only [State.enteredAs, BusRequest.word, hr]
  | read word tag =>
    cases hr : (s.classify p word).route with
    | pass =>
      rw [State.enterHead_of_read (by rw [hr]; exact fun _ _ h => nomatch h), State.progressFirst_port, if_pos rfl]
      simp only [State.enteredAs, BusRequest.word, hr]
    | staged g v =>
      by_cases hc : s.fullyCovered g v word = true
      · rw [State.enterHead_of_covered hr hc, State.hitFor_port, State.countPort_port, State.progressFirst_port]
        simp only [if_true, State.enteredAs, BusRequest.word, hr, hc]
      · have hc' : s.fullyCovered g v word = false := by simpa using hc
        rw [State.enterHead_of_read (by
          rw [hr]; intro g' v' h; cases h; exact hc'), State.progressFirst_port, if_pos rfl]
        simp only [State.enteredAs, BusRequest.word, hr, hc', Bool.false_eq_true, if_false]

/-- A request that has nothing unsettled before it and nothing behind it is the only one the port brings to the head. -/
theorem State.moveOn_of_last {s : State} {p : Port} {r : BusRequest} {pre : List QueuedRequest}
    (hq : (s.port p).queue = pre ++ [⟨r, .behind⟩]) (hpre : ∀ x ∈ pre, x.progress.isUnsettled = false) :
    s.moveOn p = s.enterHead p r := by
  have notBehind : ∀ x ∈ pre, x.progress.isBehind = false := fun x hx => (Bool.or_eq_false_iff.mp (hpre x hx)).1
  have notHead : ∀ x ∈ pre, x.progress.isHead = false := fun x hx => (Bool.or_eq_false_iff.mp (hpre x hx)).2
  have first : s.firstRequest p Progress.isBehind = some ⟨r, .behind⟩ := by
    unfold State.firstRequest
    rw [hq]
    exact find_of_split rfl notBehind
  have noHead : s.head p = none := by
    unfold State.head State.firstRequest
    rw [hq]
    refine List.find?_eq_none.mpr fun x hx => ?_
    rcases List.mem_append.mp hx with hx | hx
    · simp [notHead x hx]
    · rw [List.mem_singleton.mp hx]
      exact Bool.false_ne_true
  unfold State.moveOn
  rw [hq, List.length_append, List.length_singleton]
  unfold State.bringHeads
  rw [noHead, first]
  dsimp only
  refine State.bringHeads_of_settled _ (.inr ?_)
  unfold State.firstRequest
  rw [State.enterHead_queue, hq, setFirst_of_split _ rfl notBehind]
  refine List.find?_eq_none.mpr fun x hx => ?_
  rcases List.mem_append.mp hx with hx | hx
  · simp [notBehind x hx]
  · rw [List.mem_singleton.mp hx, State.enteredAs_place]
    decide

/-- The state in which a request has just been appended to its port's queue and counted (R101). -/
def State.appended (p : Port) (r : BusRequest) (s : State) : State :=
  s.withPort p { s.port p with
    queue := (s.port p).queue ++ [⟨r, .behind⟩]
    counts := { (s.port p).counts with requests := (s.port p).counts.requests + 1 } }

theorem State.appended_port (s : State) (p q : Port) (r : BusRequest) : (s.appended p r).port q =
    if q = p then { s.port p with
      queue := (s.port p).queue ++ [⟨r, .behind⟩]
      counts := { (s.port p).counts with requests := (s.port p).counts.requests + 1 } } else s.port q := by
  unfold State.appended
  by_cases e : q = p
  · subst e; rw [State.port_withPort_same, if_pos rfl]
  · rw [State.port_withPort_ne _ (Ne.symm e), if_neg e]

@[simp] theorem State.appended_frame (s : State) (p : Port) (r : BusRequest) :
    (s.appended p r).resetLow = s.resetLow ∧ (s.appended p r).op = s.op ∧ (s.appended p r).windows = s.windows ∧
    (s.appended p r).pool = s.pool ∧ (s.appended p r).holds = s.holds ∧ (s.appended p r).groups = s.groups ∧
    (s.appended p r).drain = s.drain ∧ (s.appended p r).arb = s.arb ∧ (s.appended p r).tb = s.tb ∧
    (s.appended p r).cap = s.cap ∧ (s.appended p r).ev = s.ev ∧ (s.appended p r).mgmt = s.mgmt ∧
    (s.appended p r).inputs = s.inputs ∧ (s.appended p r).pending = s.pending := by
  unfold State.appended
  exact State.withPort_frame s p _

/-- The row REQUEST_ACCEPT of a well-formed request the port has room for (R101). -/
theorem exec_requestAccept_of_room {s : State} {p : Port} {r : BusRequest} (hr : s.resetLow = false)
    (hw : r.wellFormed = true) (h0 : (s.port p).waiting = []) (hl : (s.port p).queue.length < 4) :
    exec (.requestAccept p r) s = .next ((s.appended p r).moveOn p) := by
  refine (if_pos hw).trans (congrArg Host.Outcome.next ((State.awake_of_high hr _).trans ?_))
  unfold State.presentRequest
  have room : (s.port p).queue.length < Config.portDepth := hl
  rw [if_pos (by simp [h0, room])]
  rfl

/-- Settles O26: the bus, or a place behind the head. -/
theorem requestsWaitOrGoBehindTheHead : Obligations.RequestsWaitOrGoBehindTheHead := by
  refine ⟨fun s p r hr hw h => ?_, fun s p r hr hw h0 hl hh => ?_⟩
  · refine (if_pos hw).trans (congrArg Host.Outcome.next ((State.awake_of_high hr _).trans ?_))
    unfold State.presentRequest
    rw [if_neg]
    rcases h with h | h
    · simp [h]
    · have : ¬ (s.port p).queue.length < Config.portDepth := Nat.not_lt.mpr h
      simp [this]
  · rw [exec_requestAccept_of_room hr hw h0 hl, State.moveOn_of_head]
    · rfl
    · unfold State.head State.firstRequest at hh ⊢
      rw [State.appended_port, if_pos rfl, List.find?_append]
      cases h : (s.port p).queue.find? fun r => r.progress.isHead with
      | none => rw [h] at hh; cases hh
      | some x => rfl

theorem State.classify_eq {s t : State} (op : t.op = s.op) (windows : t.windows = s.windows) (p : Port) (word : WordIndex) :
    t.classify p word = s.classify p word := by
  have window : ∀ w, t.window w = s.window w := fun w => by simp [State.window, windows]
  simp only [State.classify, State.governingWindow, op, window]

theorem State.stagedByte_eq {s t : State} (pool : t.pool = s.pool) (groups : t.groups = s.groups) (g : GroupId)
    (v : ReadView) (word : WordIndex) (k : Fin 8) : t.stagedByte g v word k = s.stagedByte g v word k := by
  have entry : (fun i => t.entry i) = fun i => s.entry i := funext fun i => State.entry_eq pool i
  simp only [State.stagedByte, State.lookup, State.group_eq groups, entry]

theorem State.fullyCovered_eq {s t : State} (pool : t.pool = s.pool) (groups : t.groups = s.groups) (g : GroupId)
    (v : ReadView) (word : WordIndex) : t.fullyCovered g v word = s.fullyCovered g v word := by
  simp only [State.fullyCovered, State.stagedByte_eq pool groups]

theorem State.forwardedWord_eq {s t : State} (pool : t.pool = s.pool) (groups : t.groups = s.groups) (g : GroupId)
    (v : ReadView) (word : WordIndex) (m : Lanes) : t.forwardedWord g v word m = s.forwardedWord g v word m := by
  simp only [State.forwardedWord, State.stagedByte_eq pool groups]

theorem State.enteredAs_eq {s t : State} (op : t.op = s.op) (windows : t.windows = s.windows) (pool : t.pool = s.pool)
    (groups : t.groups = s.groups) (p : Port) (r : BusRequest) : t.enteredAs p r = s.enteredAs p r := by
  unfold State.enteredAs
  simp only [State.classify_eq op windows, State.fullyCovered_eq pool groups, State.forwardedWord_eq pool groups]

/-- The number of forwarded reads a request adds as it becomes the head (R72, R111). -/
def Progress.forwards : Progress → Count
  | .answered _ => 1
  | _ => 0

/-- The counts after a request became the head. -/
theorem State.enterHead_counts (s : State) (p : Port) (r : BusRequest) : ((s.enterHead p r).port p).counts =
    { (s.port p).counts with forwarded := (s.port p).counts.forwarded + (s.enteredAs p r).forwards } := by
  cases r with
  | write word m d tag =>
    cases hr : (s.classify p word).route with
    | pass =>
      rw [State.enterHead_of_pass hr, State.hitFor_port, State.progressFirst_port, if_pos rfl]
      simp [State.enteredAs, BusRequest.word, hr, Progress.forwards]
    | staged g v =>
      rw [State.enterHead_of_staged hr, State.hitFor_port, State.passage_port, State.progressFirst_port, if_pos rfl]
      simp [State.enteredAs, BusRequest.word, hr, Progress.forwards]
  | read word tag =>
    cases hr : (s.classify p word).route with
    | pass =>
      rw [State.enterHead_of_read (by rw [hr]; exact fun _ _ h => nomatch h), State.progressFirst_port, if_pos rfl]
      simp [State.enteredAs, BusRequest.word, hr, Progress.forwards]
    | staged g v =>
      by_cases hc : s.fullyCovered g v word = true
      · rw [State.enterHead_of_covered hr hc, State.hitFor_port, State.countPort_port, State.progressFirst_port]
        simp [State.enteredAs, BusRequest.word, hr, hc, Progress.forwards]
      · have hc' : s.fullyCovered g v word = false := by simpa using hc
        rw [State.enterHead_of_read (by
          rw [hr]; intro g' v' h; cases h; exact hc'), State.progressFirst_port, if_pos rfl]
        simp [State.enteredAs, BusRequest.word, hr, hc', Progress.forwards]

theorem State.passage_windows {s t : State} (h : t.windows = s.windows) (o : Option WindowId) (f : Nat → Nat) :
    (t.passage o f).windows = (s.passage o f).windows := by
  unfold State.passage
  cases o with
  | none => exact h
  | some w => simp [State.withWindow, State.window, h]

/-- The windows after a request became the head: one more write in passage for a staged write (R84). -/
theorem State.enterHead_windows (s : State) (p : Port) (r : BusRequest) :
    ((r.kind = .read ∨ (s.classify p r.word).route = .pass) → (s.enterHead p r).windows = s.windows) ∧
    ∀ (g : GroupId) (v : ReadView), r.kind = .write → (s.classify p r.word).route = .staged g v →
      (s.enterHead p r).windows = (s.passage (s.classify p r.word).window (· + 1)).windows := by
  cases r with
  | write word m d tag =>
    refine ⟨fun h => ?_, fun g v _ hr => ?_⟩
    · rw [State.enterHead_of_pass (word := word) (h.resolve_left (by simp [BusRequest.kind]))]
      simp
    · rw [State.enterHead_of_staged (word := word) hr]
      simp only [State.hitFor_frame]
      exact State.passage_windows (by simp) _ _
  | read word tag =>
    refine ⟨fun _ => ?_, fun _ _ h => nomatch h⟩
    by_cases hc : ∀ g v, (s.classify p word).route = .staged g v → s.fullyCovered g v word = false
    · rw [State.enterHead_of_read hc]; simp
    · push Not at hc
      obtain ⟨g, v, hr, hc⟩ := hc
      rw [State.enterHead_of_covered hr (by simpa using hc)]; simp

/-- The capture unit after a request became the head: it and the causes stay without a channel (R113). -/
theorem State.enterHead_capture {s : State} {p : Port} {r : BusRequest} (h : (s.classify p r.word).channel = none) :
    (s.enterHead p r).cap = s.cap ∧ (s.enterHead p r).ev = s.ev := by
  unfold State.enterHead
  dsimp only
  repeat' split
  all_goals simp [State.hitFor, h]

theorem State.passage_window (s : State) (o : Option WindowId) (f : Nat → Nat) (w : WindowId) : (s.passage o f).window w =
    if o = some w then { s.window w with passage := f (s.window w).passage } else s.window w := by
  unfold State.passage
  cases o with
  | none => simp
  | some v =>
    by_cases e : v = w
    · subst e; simp
    · simp [e, State.window_withWindow_ne _ e]

/-- Settles O27. -/
theorem requestBecomesTheHead : Obligations.RequestBecomesTheHead := by
  intro s p r hr hw h0 hl hq
  have cls : (s.appended p r).classify p r.word = s.classify p r.word := State.classify_eq (by simp) (by simp) p r.word
  have entered : (s.appended p r).enteredAs p r = s.enteredAs p r :=
    State.enteredAs_eq (by simp) (by simp) (by simp) (by simp) p r
  have port := s.appended_port p p r
  rw [if_pos rfl] at port
  have moved := ((s.appended p r).enterHead_port p p r).1 rfl
  rw [exec_requestAccept_of_room hr hw h0 hl, State.moveOn_of_last (by rw [port]) hq]
  generalize ht : (s.appended p r).enterHead p r = t at moved
  refine ⟨t, rfl, ?_, ?_, ?_, fun hc => ?_, fun h => ?_, fun g v hk hv w => ?_, s.enteredAs p r,
    (s.enteredAs p r).forwards, ?_, ?_, ?_⟩
  · have other : ∀ q, q ≠ p → t.port q = s.port q := fun q hne => by
      rw [← ht, ((s.appended p r).enterHead_port p q r).2 hne, State.appended_port, if_neg hne]
    subst ht
    cases p
    · refine State.ext_blocks ?_ ?_ rfl ?_ ?_ ?_ ?_ ?_ rfl (other .b (by decide)) ?_ rfl rfl ?_ ?_ ?_ <;> simp
    · refine State.ext_blocks ?_ ?_ rfl ?_ ?_ ?_ ?_ ?_ (other .a (by decide)) rfl ?_ rfl rfl ?_ ?_ ?_ <;> simp
  · rw [moved.waiting, port]
    exact h0
  · rw [moved.lastError, port]
  · obtain ⟨h1, h2⟩ := State.enterHead_capture (cls ▸ hc)
    rw [← ht]
    exact ⟨h1.trans (by simp), h2.trans (by simp)⟩
  · rw [← ht, ((s.appended p r).enterHead_windows p r).1 (by rw [cls]; exact h)]
    simp
  · have windows := ((s.appended p r).enterHead_windows p r).2 g v hk (by rw [cls]; exact hv)
    rw [ht, cls] at windows
    have : t.window w = ((s.appended p r).passage (s.classify p r.word).window (· + 1)).window w := by
      simp only [State.window, windows]
    rw [this, State.passage_window]
    have same : (s.appended p r).window w = s.window w := by simp [State.window]
    rw [same]
  · rw [← ht, State.enterHead_queue, port, entered]
    exact setFirst_of_split _ rfl fun x hx => (Bool.or_eq_false_iff.mp (hq x hx)).1
  · rw [← ht, State.enterHead_counts, port, entered]
  · cases r with
    | write word m d tag =>
      cases hv : (s.classify p word).route with
      | pass => simp [BusRequest.word, hv, State.enteredAs, Progress.forwards]
      | staged g v => simp [BusRequest.word, BusRequest.kind, hv, State.enteredAs, Progress.forwards]
    | read word tag =>
      cases hv : (s.classify p word).route with
      | pass => simp [BusRequest.word, hv, State.enteredAs, Progress.forwards]
      | staged g v =>
        by_cases hc : s.fullyCovered g v word = true
        · simp [BusRequest.word, BusRequest.kind, hv, hc, State.enteredAs, Progress.forwards]
        · simp [BusRequest.word, BusRequest.kind, hv, hc, State.enteredAs, Progress.forwards]

/-! ## RESPONSE_TAKEN -/

/-- Settles O28. -/
theorem responseIsTakenInOrder : Obligations.ResponseIsTakenInOrder := by
  intro s p hr
  have row : exec (.responseTaken p) s = .next (s.takeResponse p) := congrArg Host.Outcome.next (State.awake_of_high hr _)
  rw [row]
  refine ⟨fun r a rest hq => ?_, fun hn => ?_⟩
  · have delivered : s.delivered p = some (r.tag, a) := by simp [State.delivered, hq]
    have taken : s.takeResponse p = (s.withPort p { s.port p with queue := rest }).acceptWaiting p := by
      simp only [State.takeResponse, delivered, hq, List.tail_cons]
    rw [taken]
    refine ⟨fun h0 => ?_, fun x more hw hl => ?_⟩
    · have : ((s.withPort p { s.port p with queue := rest }).port p).waiting = [] := by
        rw [State.port_withPort_same]; exact h0
      simp only [State.acceptWaiting, this]
    · have accepted : (s.withPort p { s.port p with queue := rest }).acceptWaiting p =
          (((s.withPort p { s.port p with queue := rest }).withPort p
            { s.port p with queue := rest, waiting := more }).appended p x).moveOn p := by
        have room : rest.length < Config.portDepth := hl
        simp only [State.acceptWaiting, State.port_withPort_same, hw, if_pos room, State.acceptRequest, State.appended]
      rw [accepted]
      generalize hu : ((s.withPort p { s.port p with queue := rest }).withPort p
        { s.port p with queue := rest, waiting := more }).appended p x = u
      have port : u.port p = { s.port p with
          queue := rest ++ [⟨x, .behind⟩], waiting := more
          counts := { (s.port p).counts with requests := (s.port p).counts.requests + 1 } } := by
        rw [← hu, State.appended_port, if_pos rfl, State.port_withPort_same]
      have moved := u.moveOn_same p
      obtain ⟨n, counts⟩ := moved.counts
      refine ⟨_, rfl, by rw [moved.waiting, port], ?_, by rw [counts, port]⟩
      rw [movesOn_requests moved.queue, port]
      simp
  · have : s.delivered p = none := by
      unfold State.delivered
      split
      · rename_i r a rest hq
        exact absurd hq (hn r a rest)
      · rfl
    simp only [State.takeResponse, this]

end Sys2Proof.Machine

/-! PROOFS. Grants: the choice among the waiting requesters, the head or the drain write that is sent, and memory's answer
to a port. -/

namespace Sys2Proof.Machine

open Sys2Proof

/-! ## The choice -/

theorem Requester.mem_cycleFrom (r x : Requester) : r ∈ x.cycleFrom := by
  rcases r with (_ | _) | _ <;> rcases x with (_ | _) | _ <;> decide

section
variable {s : State} {r : Requester}

/-- The first requester met of a list that waits (R64). -/
theorem State.firstMet_of_find {l : List Requester} (h : l.find? s.waits = some r) : s.firstMet l r := by
  obtain ⟨hr, pre, post, hl, hpre⟩ := List.find?_eq_some_iff_append.mp h
  exact ⟨pre, post, hl, hr, fun x hx => by simpa using hpre x hx⟩

theorem State.firstWaitingPort_eq (s : State) :
    s.firstWaitingPort = (s.arb.pointer.cycleFrom.filter (·.isPort)).find? s.waits := by
  unfold State.firstWaitingPort
  rw [List.find?_filter]
  refine congrArg₂ _ (funext fun x => ?_) rfl
  cases x.isPort <;> cases s.waits x <;> rfl

theorem State.firstWaitingPort_isSome (s : State) :
    s.firstWaitingPort.isSome = true ↔ s.waits (.port .a) = true ∨ s.waits (.port .b) = true := by
  rw [State.firstWaitingPort_eq, List.find?_isSome]
  constructor
  · rintro ⟨x, hx, hw⟩
    obtain ⟨-, hp⟩ := List.mem_filter.mp hx
    rcases x with (_ | _) | _
    · exact .inl hw
    · exact .inr hw
    · cases hp
  · rintro (h | h)
    · exact ⟨_, List.mem_filter.mpr ⟨Requester.mem_cycleFrom _ _, rfl⟩, h⟩
    · exact ⟨_, List.mem_filter.mpr ⟨Requester.mem_cycleFrom _ _, rfl⟩, h⟩

theorem State.drainIfWaiting_of_waits (h : s.waits .drain = true) : s.drainIfWaiting = some .drain := if_pos h

theorem State.drainIfWaiting_of_not (h : ¬ s.waits .drain = true) : s.drainIfWaiting = none := if_neg h

/-- The model's choice is the one R59 and R64 give. -/
theorem State.grantRule_of_choice (h : s.grantChoice = some r) : s.grantRule r := by
  unfold State.grantChoice at h
  unfold State.grantRule
  by_cases he : s.arb.escalated = true ∧ s.waits .drain = true
  · rw [if_pos (by simp [he])] at h
    rw [if_pos he]
    exact (Option.some.inj h).symm
  · rw [if_neg (by simpa using he)] at h
    rw [if_neg he]
    unfold State.policyChoice at h
    cases hp : s.arb.policy with
    | rotate =>
      rw [hp] at h
      exact State.firstMet_of_find h
    | portsFirst =>
      rw [hp] at h
      dsimp only at h ⊢
      by_cases hw : s.waits (.port .a) = true ∨ s.waits (.port .b) = true
      · rw [if_pos hw]
        obtain ⟨x, hx⟩ := Option.isSome_iff_exists.mp ((State.firstWaitingPort_isSome s).mpr hw)
        rw [hx, Option.some_or] at h
        cases h
        exact State.firstMet_of_find ((State.firstWaitingPort_eq s).symm.trans hx)
      · rw [if_neg hw]
        have none : s.firstWaitingPort = none := by
          simpa using mt (State.firstWaitingPort_isSome s).mp hw
        rw [none, Option.none_or] at h
        by_cases hd : s.waits .drain = true
        · rw [State.drainIfWaiting_of_waits hd] at h
          exact ⟨(Option.some.inj h).symm, hd⟩
        · rw [State.drainIfWaiting_of_not hd] at h
          cases h
    | drainFirst =>
      rw [hp] at h
      dsimp only at h ⊢
      by_cases hd : s.waits .drain = true
      · rw [State.drainIfWaiting_of_waits hd, Option.some_or] at h
        rw [if_pos hd]
        exact (Option.some.inj h).symm
      · rw [State.drainIfWaiting_of_not hd, Option.none_or] at h
        rw [if_neg hd]
        exact State.firstMet_of_find ((State.firstWaitingPort_eq s).symm.trans h)

/-- The requester chosen waits. -/
theorem State.grantRule.waits (h : s.grantRule r) : s.waits r = true := by
  unfold State.grantRule at h
  split at h
  · rename_i he; rw [h]; exact he.2
  · split at h
    · obtain ⟨_, _, _, hr, _⟩ := h; exact hr
    · split at h
      · obtain ⟨_, _, _, hr, _⟩ := h; exact hr
      · rw [h.1]; exact h.2
    · split at h
      · rename_i hd; rw [h]; exact hd
      · obtain ⟨_, _, _, hr, _⟩ := h; exact hr

theorem State.grantChoice_of_waits (h : ∃ r, s.waits r = true) : ∃ r, s.grantChoice = some r := by
  refine Option.isSome_iff_exists.mp ?_
  unfold State.grantChoice
  split
  · rfl
  · unfold State.policyChoice
    obtain ⟨x, hx⟩ := h
    have ports : ∀ p, x = .port p → s.firstWaitingPort.isSome = true := fun p e =>
      (State.firstWaitingPort_isSome s).mpr (by rw [e] at hx; cases p <;> simp [hx])
    split
    · exact List.find?_isSome.mpr ⟨x, Requester.mem_cycleFrom _ _, hx⟩
    · cases x with
      | port p => simp [ports p rfl]
      | drain => simp [State.drainIfWaiting_of_waits hx]
    · cases x with
      | port p => simp [ports p rfl]
      | drain => simp [State.drainIfWaiting_of_waits hx]

theorem State.grantChoice_of_nobody (h : ∀ r, s.waits r = false) : s.grantChoice = none := by
  cases hc : s.grantChoice with
  | none => rfl
  | some r => exact absurd (State.grantRule_of_choice hc).waits (by simp [h r])

/-! ## Grants -/

theorem State.grant_of_port {p : Port} (hl : s.arb.outstanding.length < 4) (h : s.grantChoice = some (.port p)) :
    s.grant = s.grantPort p := by
  have room : s.arb.outstanding.length < Config.memorySlots := hl
  unfold State.grant
  rw [if_pos room, h]

theorem State.grant_of_drain (hl : s.arb.outstanding.length < 4) (h : s.grantChoice = some .drain) :
    s.grant = s.grantDrain := by
  have room : s.arb.outstanding.length < Config.memorySlots := hl
  unfold State.grant
  rw [if_pos room, h]

/-- A port waits at the arbiter with its head (R63). -/
theorem State.waits_port {p : Port} (h : s.waits (.port p) = true) : ∃ (r : BusRequest) (cls : Classification),
    s.firstRequest p Progress.isWaiting = some ⟨r, .head cls .waiting⟩ := by
  obtain ⟨⟨r, x⟩, hx⟩ := Option.isSome_iff_exists.mp h
  have hw : Progress.isWaiting x = true := by simpa [State.firstRequest] using List.find?_some hx
  cases x with
  | head cls place =>
    cases place with
    | waiting => exact ⟨r, cls, hx⟩
    | passage _ => cases hw
    | held => cases hw
  | behind => cases hw
  | onM _ => cases hw
  | answered _ => cases hw

/-- The state in which a port's waiting head has been sent, before the port moves on (R104, R106). -/
def State.headSent (p : Port) (r : BusRequest) (cls : Classification) (s : State) : State :=
  (((s.progressFirst p Progress.isWaiting (.onM cls)).countPort p fun c => c.withPass r.kind).recordGrant (.port p)
    (.port p r.tag r.kind) r)

theorem State.grantPort_of_waiting {p : Port} {r : BusRequest} {cls : Classification}
    (h : s.firstRequest p Progress.isWaiting = some ⟨r, .head cls .waiting⟩) :
    s.grantPort p = (s.headSent p r cls).moveOn p := by
  simp only [State.grantPort, h, State.headSent]

theorem State.headSent_arb (s : State) (p : Port) (r : BusRequest) (cls : Classification) : (s.headSent p r cls).arb =
    { s.arb with
      outstanding := s.arb.outstanding ++ [⟨.port p r.tag r.kind, r.withTag s.arb.grants⟩]
      pointer := (Requester.port p).successor
      grants := s.arb.grants + 1 } := by
  simp [State.headSent, State.recordGrant]

theorem State.headSent_port (s : State) (p q : Port) (r : BusRequest) (cls : Classification) :
    (s.headSent p r cls).port q = if q = p then { s.port p with
      queue := setFirst Progress.isWaiting (.onM cls) (s.port p).queue
      counts := (s.port p).counts.withPass r.kind } else s.port q := by
  have granted : (s.headSent p r cls).port q =
      ((s.progressFirst p Progress.isWaiting (.onM cls)).countPort p fun c => c.withPass r.kind).port q :=
    State.port_of_ports (by simp [State.headSent]) (by simp [State.headSent]) q
  rw [granted, State.countPort_port, State.progressFirst_port]
  split
  · simp
  · rw [State.progressFirst_port, if_neg ‹_›]

theorem BusRequest.withTag_tag (r : BusRequest) (n : Tag) : (r.withTag n).tag = n := by cases r <;> rfl

/-- The drain engine waits at the arbiter with its next entry (R63). -/
theorem State.waits_drain (h : s.waits .drain = true) : ∃ d i e, s.drainCandidate = some (d, i, e) := by
  obtain ⟨⟨d, i, e⟩, hx⟩ := Option.isSome_iff_exists.mp h
  exact ⟨d, i, e, hx⟩

theorem State.grantDrain_of_candidate {d : Drain} {i : PoolIndex} {e : Entry} (h : s.drainCandidate = some (d, i, e)) :
    s.grantDrain = (s.issueDrain d i).recordGrant .drain (.drain d.group i) (e.memoryWrite 0) := by
  simp only [State.grantDrain, h]

end

/-- Settles O42. -/
theorem grantFollowsThePolicy : Obligations.GrantFollowsThePolicy := by
  intro s hr
  have row : exec .grant s = .next s.grant := congrArg Host.Outcome.next (State.awake_of_high hr _)
  rw [row]
  refine ⟨fun hl hw => ?_, fun h => ?_⟩
  · obtain ⟨r, hc⟩ := State.grantChoice_of_waits hw
    have rule := State.grantRule_of_choice hc
    have waits := rule.waits
    cases r with
    | port p =>
      rw [State.grant_of_port hl hc]
      obtain ⟨q, cls, hq⟩ := State.waits_port waits
      refine ⟨_, .port p, .port p q.tag q.kind, q.withTag s.arb.grants, rfl, rule, rfl, BusRequest.withTag_tag _ _, ?_,
        by simp, by simp, by simp, by simp, by simp⟩
      rw [State.grantPort_of_waiting hq, (State.moveOn_frame _ _).2.2.2.2.2.2.1, State.headSent_arb]
    | drain =>
      rw [State.grant_of_drain hl hc]
      obtain ⟨d, i, e, hd⟩ := State.waits_drain waits
      refine ⟨_, .drain, .drain d.group i, (e.memoryWrite 0).withTag s.arb.grants, rfl, rule, rfl,
        BusRequest.withTag_tag _ _, ?_, by simp, by simp, by simp, by simp, by simp⟩
      rw [State.grantDrain_of_candidate hd]
      simp [State.recordGrant]
  · refine congrArg Host.Outcome.next ?_
    unfold State.grant
    rcases h with h | h
    · exact if_neg (Nat.not_lt.mpr h)
    · rw [State.grantChoice_of_nobody h]
      split <;> rfl

/-! ## What a grant sends -/

/-- The waiting head of an ordered queue is the first request that waits, and setting either sets it (R102). -/
theorem queueOrdered_waiting {pre post : List QueuedRequest} {r : BusRequest} {cls : Classification}
    (h : queueOrdered (pre ++ ⟨r, .head cls .waiting⟩ :: post) = true) (new : Progress) :
    (pre ++ ⟨r, .head cls .waiting⟩ :: post).find? (fun x => Progress.isWaiting x.progress) =
      some ⟨r, .head cls .waiting⟩ ∧
    setFirst Progress.isWaiting new (pre ++ ⟨r, .head cls .waiting⟩ :: post) = pre ++ ⟨r, new⟩ :: post := by
  have notWaiting : ∀ x ∈ pre, Progress.isWaiting x.progress = false := fun x hx => by
    have settled := (queueOrdered_around h).1 x hx
    unfold Progress.isWaiting
    split
    · rename_i hp
      rw [hp] at settled
      cases settled
    · rfl
  exact ⟨find_of_split rfl notWaiting, setFirst_of_split new rfl notWaiting⟩

/-- A grant to a port with a waiting head (R104, R106). -/
theorem State.grant_of_head {s : State} {p : Port} {r : BusRequest} {cls : Classification} {pre post : List QueuedRequest}
    (hl : s.arb.outstanding.length < 4) (hc : s.grantChoice = some (.port p))
    (hq : (s.port p).queue = pre ++ ⟨r, .head cls .waiting⟩ :: post) (ho : queueOrdered (s.port p).queue = true) :
    s.grant = (s.headSent p r cls).moveOn p ∧
    (s.headSent p r cls).port p = { s.port p with
      queue := pre ++ ⟨r, .onM cls⟩ :: post, counts := (s.port p).counts.withPass r.kind } := by
  rw [hq] at ho
  obtain ⟨first, sent⟩ := queueOrdered_waiting ho (.onM cls)
  have waiting : s.firstRequest p Progress.isWaiting = some ⟨r, .head cls .waiting⟩ := by
    unfold State.firstRequest
    rw [hq, first]
  refine ⟨(State.grant_of_port hl hc).trans (State.grantPort_of_waiting waiting), ?_⟩
  rw [State.headSent_port, if_pos rfl, hq, sent]

section
variable {s : State} {d : Drain} {i : PoolIndex} {e : Entry}

/-- The pool after an entry is issued (R20). -/
theorem State.issueDrain_entry (he : s.entry i = some e) (j : PoolIndex) : (s.issueDrain d i).entry j =
    if j = i then some { e with state := .writing } else s.entry j := by
  have pool : (s.issueDrain d i).pool =
      (s.withPool (updateEntries [i] (fun e => { e with state := .writing }) s.pool)).pool := by
    simp only [State.issueDrain, State.withDrain_pool]
  rw [State.entry_eq pool, State.entry_updateEntries]
  by_cases k : j = i
  · subst k; simp [he]
  · simp [k]

/-- The drain engine after an entry is issued: next to issue is the next QUEUED entry of the list (R50, R52). -/
theorem State.issueDrain_drain (he : s.entry i = some e) : (s.issueDrain d i).drain = { s.drain with
    queue := d.issued ((s.group d.group).drainList.find? fun j => decide (j ≠ i) && s.entryIs .queued j) ::
      s.drain.queue.tail } := by
  have queued : ∀ j, (s.withPool (updateEntries [i] (fun e => { e with state := .writing }) s.pool)).entryIs .queued j =
      (decide (j ≠ i) && s.entryIs .queued j) := fun j => by
    unfold State.entryIs
    rw [State.entry_updateEntries]
    by_cases k : j = i
    · subst k; simp [he]
    · simp [k]
  simp only [State.issueDrain, State.withDrain_drain, State.withPool_drain, State.withPool_group, State.firstQueued]
  rw [funext queued]

end

/-- Settles O43. -/
theorem grantSendsAHeadOrADrainWrite : Obligations.GrantSendsAHeadOrADrainWrite := by
  refine ⟨fun s p r cls hr hl hc ho hh => ?_, fun s d rest i e hr hl hc hq hphase hnext he => ?_⟩
  · have row : exec .grant s = .next s.grant := congrArg Host.Outcome.next (State.awake_of_high hr _)
    obtain ⟨pre, post, hq, -⟩ := State.head_split hh
    obtain ⟨eq, port⟩ := State.grant_of_head hl hc hq ho
    have moved := (s.headSent p r cls).moveOn_same p
    obtain ⟨n, counts⟩ := moved.counts
    have before : ∀ x ∈ pre, x.progress.isBehind = false := fun x hx =>
      (Bool.or_eq_false_iff.mp ((queueOrdered_around (hq ▸ ho)).1 x hx)).1
    rw [row, eq]
    refine ⟨_, rfl, ?_, ?_, ?_, ?_, by simp [State.headSent], by simp [State.headSent], by simp [State.headSent],
      fun q hne => ?_⟩
    · rw [(State.moveOn_frame _ _).2.2.2.2.2.2.1, State.headSent_arb]
      cases r <;> rfl
    · exact queueMoves_of_movesOn hq (by rw [port]) rfl before moved
    · rw [counts, port]
      cases r <;> simp [PortCounts.withPass, BusRequest.kind]
    · rw [counts, port]
      cases r <;> simp [PortCounts.withPass, BusRequest.kind]
    · rw [State.moveOn_other _ hne, State.headSent_port, if_neg hne]
  · have row : exec .grant s = .next s.grant := congrArg Host.Outcome.next (State.awake_of_high hr _)
    have candidate : s.drainCandidate = some (d, i, e) := by simp [State.drainCandidate, hq, hphase, hnext, he]
    have queue := s.issueDrain_drain (d := d) he
    rw [hq, List.tail_cons] at queue
    rw [row, State.grant_of_drain hl hc, State.grantDrain_of_candidate candidate]
    refine ⟨_, (s.group d.group).drainList.find? (fun j => decide (j ≠ i) && s.entryIs .queued j), rfl, ?_, fun j => ?_, rfl,
      ?_, ?_⟩
    · refine State.ext_blocks ?_ ?_ ?_ rfl ?_ ?_ rfl rfl ?_ ?_ ?_ ?_ ?_ ?_ ?_ ?_ <;> simp
    · rw [State.entry_eq (s := s.issueDrain d i) (by simp), State.issueDrain_entry he]
    · refine (State.recordGrant_frame _ _ _ _).2.2.2.2.2.2.1.trans (queue.trans ?_)
      unfold Drain.issued
      cases List.find? (fun j => decide (j ≠ i) && s.entryIs .queued j) (s.group d.group).drainList <;> simp
    · simp only [State.recordGrant, State.withArb_arb, (State.issueDrain_frame s d i).2.2.2.2.2.1]
      rfl

end Sys2Proof.Machine

/-! PROOFS. Memory's responses: the answer of a port's oldest request on port M, the acknowledgement of a drain write, and
the retirement of a generation; the hits of heads and of reads. -/

namespace Sys2Proof.Machine

open Sys2Proof

/-! ## Hits and records seen from equal capture units -/

theorem State.handRecord_capture {s t : State} (cap : t.cap = s.cap) (ev : t.ev = s.ev) (r : CaptureRecord) :
    (t.handRecord r).cap = (s.handRecord r).cap ∧ (t.handRecord r).ev = (s.handRecord r).ev := by
  unfold State.handRecord
  rw [cap]
  split
  · exact ⟨by simp, by simp [State.refreshReady, ev]⟩
  · exact ⟨by simp, by simp [State.raise, ev]⟩

theorem State.takeHit_capture {s t : State} (cap : t.cap = s.cap) (ev : t.ev = s.ev) (tb : t.tb = s.tb) (h : Hit) :
    (t.takeHit h).cap = (s.takeHit h).cap ∧ (t.takeHit h).ev = (s.takeHit h).ev := by
  have now : t.now = s.now := by simp [State.now, tb]
  have written : ∀ x, (t.withChannel h.channel x).cap = (s.withChannel h.channel x).cap ∧
      (t.withChannel h.channel x).ev = (s.withChannel h.channel x).ev := fun x => by simp [State.withChannel, cap, ev]
  unfold State.takeHit
  dsimp only
  rw [State.channel_eq cap, now]
  split
  · exact ⟨cap, ev⟩
  · split
    · exact written _
    · split
      · exact written _
      · exact State.handRecord_capture (written _).1 (written _).2 _

/-- The hit of a request with a capture channel (R113). -/
theorem State.hitFor_of_channel {s : State} {cls : Classification} {c : ChannelId} (h : cls.channel = some c) (p : Port)
    (r : BusRequest) (m : LaneSet) (d : Lanes) (e : Bool) :
    s.hitFor p r cls m d e = s.takeHit ⟨c, p, r.kind, r.word, m, d, e⟩ := by
  simp only [State.hitFor, h]

theorem State.hitFor_of_none {s : State} {cls : Classification} (h : cls.channel = none) (p : Port)
    (r : BusRequest) (m : LaneSet) (d : Lanes) (e : Bool) : s.hitFor p r cls m d e = s := by
  simp only [State.hitFor, h]

/-! ## The answer of a port's request on port M -/

/-- The answer memory's response forms (R73, R77, R104). -/
def State.memoryAnswer (r : BusRequest) (cls : Classification) (status : Status) (memory : Lanes) (s : State) : Answer :=
  ⟨status, match r with
    | .read word _ => some (s.readAnswer cls word status memory)
    | .write _ _ _ _ => none⟩

/-- The word of a read's answer, seen from a state with the same staged data (R73, R77). -/
theorem State.readAnswer_eq {s u : State} (pool : u.pool = s.pool) (groups : u.groups = s.groups) (cls : Classification)
    (word : WordIndex) (status : Status) (memory : Lanes) : u.readAnswer cls word status memory =
    match status, cls.route with
    | .error, _ => Lanes.zero
    | .okay, .pass => memory
    | .okay, .staged g v => s.forwardedWord g v word memory := by
  unfold State.readAnswer
  cases status with
  | error => rfl
  | okay =>
    cases cls.route with
    | pass => rfl
    | staged g v => exact State.forwardedWord_eq pool groups g v word memory

theorem State.memoryAnswer_eq {s u : State} (pool : u.pool = s.pool) (groups : u.groups = s.groups) (r : BusRequest)
    (cls : Classification) (status : Status) (memory : Lanes) : u.memoryAnswer r cls status memory =
    ⟨status, match r with
      | .write _ _ _ _ => none
      | .read word _ => some (match status, cls.route with
        | .error, _ => Lanes.zero
        | .okay, .pass => memory
        | .okay, .staged g v => s.forwardedWord g v word memory)⟩ := by
  cases r with
  | write word m d tag => rfl
  | read word tag =>
    unfold State.memoryAnswer
    dsimp only
    rw [State.readAnswer_eq pool groups]

/-- The oldest request on port M answered, an ERROR recorded, before a read's hit (R104, R109). -/
def State.memoryAnswered (p : Port) (r : BusRequest) (cls : Classification) (status : Status) (memory : Lanes)
    (s : State) : State :=
  match status with
  | .okay => s.progressFirst p Progress.isOnM (.answered (s.memoryAnswer r cls .okay memory))
  | .error => (s.progressFirst p Progress.isOnM (.answered (s.memoryAnswer r cls .error memory))).downstreamError p r

section
variable {s : State} {p : Port} {r : BusRequest} {cls : Classification} {pre post : List QueuedRequest}

theorem State.firstRequest_onM (hq : (s.port p).queue = pre ++ ⟨r, .onM cls⟩ :: post)
    (hpre : ∀ x ∈ pre, x.progress.isOnM = false) : s.firstRequest p Progress.isOnM = some ⟨r, .onM cls⟩ := by
  unfold State.firstRequest
  rw [hq]
  exact find_of_split rfl hpre

/-- A write's answer gives no hit (R113). -/
theorem State.routeToPort_write {word : WordIndex} {m : LaneSet} {d : Lanes} {tag : Tag}
    (h : s.firstRequest p Progress.isOnM = some ⟨.write word m d tag, .onM cls⟩) (status : Status) (memory : Lanes) :
    s.routeToPort p status memory = s.memoryAnswered p (.write word m d tag) cls status memory := by
  simp only [State.routeToPort, h]
  cases status <;> rfl

/-- A read's answer gives its hit with the word answered (R113). -/
theorem State.routeToPort_read {word : WordIndex} {tag : Tag}
    (h : s.firstRequest p Progress.isOnM = some ⟨.read word tag, .onM cls⟩) (status : Status) (memory : Lanes) :
    s.routeToPort p status memory = (s.memoryAnswered p (.read word tag) cls status memory).hitFor p (.read word tag) cls
      (BitVec.allOnes 8) (s.readAnswer cls word status memory) (decide (status = .error)) := by
  simp only [State.routeToPort, h]
  cases status <;> rfl

/-- The port of the request answered. -/
theorem State.memoryAnswered_port (hq : (s.port p).queue = pre ++ ⟨r, .onM cls⟩ :: post)
    (hpre : ∀ x ∈ pre, x.progress.isOnM = false) (status : Status) (memory : Lanes) :
    (s.memoryAnswered p r cls status memory).port p = { s.port p with
      queue := pre ++ ⟨r, .answered (s.memoryAnswer r cls status memory)⟩ :: post
      lastError := if status = .error then some ⟨.downstreamError, r.kind, r.word, r.tag, s.now⟩ else (s.port p).lastError
      counts := if status = .error then { (s.port p).counts with errDownstream := (s.port p).counts.errDownstream + 1 }
        else (s.port p).counts } := by
  have queue : ∀ new, setFirst Progress.isOnM new (s.port p).queue = pre ++ ⟨r, new⟩ :: post := fun new => by
    rw [hq]; exact setFirst_of_split new rfl hpre
  cases status with
  | okay => simp [State.memoryAnswered, State.progressFirst_port, queue]
  | error =>
    simp [State.memoryAnswered, State.downstreamError, State.recordError_port, State.progressFirst_port, queue, State.now,
      PortCounts.withError]

theorem State.memoryAnswered_other {q : Port} (h : q ≠ p) (status : Status) (memory : Lanes) :
    (s.memoryAnswered p r cls status memory).port q = s.port q := by
  cases status with
  | okay => simp [State.memoryAnswered, State.progressFirst_port, h]
  | error => simp [State.memoryAnswered, State.downstreamError, State.recordError_port, State.progressFirst_port, h]

@[simp] theorem State.memoryAnswered_frame (s : State) (p : Port) (r : BusRequest) (cls : Classification) (status : Status)
    (memory : Lanes) : (s.memoryAnswered p r cls status memory).tb = s.tb ∧
    (s.memoryAnswered p r cls status memory).cap = s.cap ∧ (s.memoryAnswered p r cls status memory).ev =
      (if status = .error then s.raise .passFault else s).ev := by
  cases status with
  | okay => simp [State.memoryAnswered]
  | error => simp [State.memoryAnswered, State.downstreamError, State.raise]

end

/-- A memory response for a port, up to the read's hit (R65). -/
theorem exec_memoryResponse_of_port {s : State} (hr : s.resetLow = false) {p : Port} {tag : Tag} {k : Access}
    {q : BusRequest} {rest : List Outstanding} (ho : s.arb.outstanding = ⟨.port p tag k, q⟩ :: rest) (status : Status)
    (memory : Lanes) (answer : Tag) : exec (.memoryResponse status memory answer) s =
    .next ((s.withArb { s.arb with outstanding := rest }).routeToPort p status memory) := by
  refine congrArg Host.Outcome.next ((State.awake_of_high hr _).trans ?_)
  simp only [State.memoryResponse, ho]

/-- Settles O44. -/
theorem memoryAnswersThePort : Obligations.MemoryAnswersThePort := by
  intro s p t₁ tag k q r rest cls status memory pre post hr ho hq hpre
  rw [exec_memoryResponse_of_port hr ho]
  generalize hu : s.withArb { s.arb with outstanding := rest } = u
  have ports : ∀ x, u.port x = s.port x := fun x => by subst hu; simp
  have hq' : (u.port p).queue = pre ++ ⟨r, .onM cls⟩ :: post := by rw [ports]; exact hq
  have first := State.firstRequest_onM hq' hpre
  have answered := State.memoryAnswered_port hq' hpre status memory
  have answer := State.memoryAnswer_eq (s := s) (u := u) (by subst hu; rfl) (by subst hu; rfl) r cls status memory
  rw [ports, answer] at answered
  -- The port, the causes and the other blocks, whichever kind the request is.
  have result : ∃ t, u.routeToPort p status memory = t ∧
      t.port p = (u.memoryAnswered p r cls status memory).port p ∧ (∀ x, x ≠ p → t.port x = u.port x) ∧
      (status = .error → t.ev.causes.getLsbD 14 = true) ∧ (cls.channel = none ∨ r.kind = .write → t.cap = s.cap) := by
    have cause : status = .error → (u.memoryAnswered p r cls status memory).ev.causes.getLsbD 14 = true := fun h => by
      rw [(u.memoryAnswered_frame p r cls status memory).2.2, if_pos h]
      exact State.raise_sets _ .passFault (by decide)
    have cap : (u.memoryAnswered p r cls status memory).cap = s.cap := by subst hu; simp
    cases r with
    | write word m d tag =>
      exact ⟨_, State.routeToPort_write first status memory, rfl, fun x hx => State.memoryAnswered_other hx _ _, cause,
        fun _ => cap⟩
    | read word tag =>
      refine ⟨_, State.routeToPort_read first status memory, by simp, fun x hx => ?_, fun h => ?_, fun h => ?_⟩
      · rw [State.hitFor_port]
        exact State.memoryAnswered_other hx _ _
      · rw [State.hitFor_causesStand (but := [17, 18]) _ (by decide) (by decide) _ _ _ _ _ _ ⟨14, by decide⟩ (by decide)]
        exact cause h
      · rw [State.hitFor_of_none (h.resolve_right (by simp [BusRequest.kind]))]
        exact cap
  obtain ⟨t, ht, port, other, cause, cap⟩ := result
  rw [ht]
  refine ⟨t, rfl, ?_, ?_, ?_, fun h => ?_, fun h => ⟨?_, ?_, cause h⟩, cap⟩
  · subst ht
    subst hu
    cases p
    · refine State.ext_blocks ?_ ?_ ?_ ?_ ?_ ?_ ?_ ?_ rfl (other .b (by decide)) ?_ rfl rfl ?_ ?_ ?_ <;> simp
    · refine State.ext_blocks ?_ ?_ ?_ ?_ ?_ ?_ ?_ ?_ (other .a (by decide)) rfl ?_ rfl rfl ?_ ?_ ?_ <;> simp
  · refine (congrArg PortState.queue (port.trans answered)).trans ?_
    cases r <;> rfl
  · rw [port, answered]
  · subst h
    rw [port, answered]
    exact ⟨rfl, rfl⟩
  · subst h
    rw [port, answered]
    subst hu
    rfl
  · subst h
    rw [port, answered]
    rfl

/-! ## Hits -/

/-- The hit a write gives as it becomes the head (R113). -/
theorem State.enterHead_write_capture {s : State} {p : Port} {word : WordIndex} {m : LaneSet} {d : Lanes} {tag : Tag}
    {c : ChannelId} (hc : (s.classify p word).channel = some c) :
    (s.enterHead p (.write word m d tag)).cap = (s.takeHit ⟨c, p, .write, word, m, d, false⟩).cap ∧
    (s.enterHead p (.write word m d tag)).ev = (s.takeHit ⟨c, p, .write, word, m, d, false⟩).ev := by
  cases hr : (s.classify p word).route with
  | pass =>
    rw [State.enterHead_of_pass hr, State.hitFor_of_channel hc]
    exact State.takeHit_capture (by simp) (by simp) (by simp) _
  | staged g v =>
    rw [State.enterHead_of_staged hr, State.hitFor_of_channel hc]
    exact State.takeHit_capture (by simp) (by simp) (by simp) _

/-- A write that follows settled requests, with only BEHIND requests after it, is the one head a port brings (R102). -/
theorem State.moveOn_of_write {s : State} {p : Port} {word : WordIndex} {m : LaneSet} {d : Lanes} {tag : Tag}
    {pre post : List QueuedRequest} (hq : (s.port p).queue = pre ++ ⟨.write word m d tag, .behind⟩ :: post)
    (hpre : ∀ x ∈ pre, x.progress.isUnsettled = false) (hpost : ∀ x ∈ post, x.progress.isBehind = true) :
    s.moveOn p = s.enterHead p (.write word m d tag) := by
  have notBehind : ∀ x ∈ pre, x.progress.isBehind = false := fun x hx => (Bool.or_eq_false_iff.mp (hpre x hx)).1
  have notHead : ∀ x ∈ pre, x.progress.isHead = false := fun x hx => (Bool.or_eq_false_iff.mp (hpre x hx)).2
  have first : s.firstRequest p Progress.isBehind = some ⟨.write word m d tag, .behind⟩ := by
    unfold State.firstRequest
    rw [hq]
    exact find_of_split rfl notBehind
  have noHead : s.head p = none := by
    unfold State.head State.firstRequest
    rw [hq]
    refine List.find?_eq_none.mpr fun x hx => ?_
    rcases List.mem_append.mp hx with hx | hx
    · simp [notHead x hx]
    · rcases List.mem_cons.mp hx with rfl | hx
      · exact Bool.false_ne_true
      · have := hpost x hx
        cases hp : x.progress <;> simp_all [Progress.isBehind, Progress.isHead]
  have isHead : (s.enteredAs p (.write word m d tag)).isHead = true := by
    unfold State.enteredAs
    generalize (s.classify p (BusRequest.write word m d tag).word).route = route
    cases route <;> rfl
  unfold State.moveOn
  rw [hq, List.length_append, List.length_cons, ← Nat.add_assoc]
  unfold State.bringHeads
  rw [noHead, first]
  dsimp only
  refine State.bringHeads_of_settled _ (.inl ?_)
  unfold State.head State.firstRequest
  rw [State.enterHead_queue, hq, setFirst_of_split _ rfl notBehind, find_of_split isHead notHead]
  rfl

/-- Settles O50: at the head, behind a head that a grant sends, and at memory's answer. -/
theorem hitsReachTheirChannel : Obligations.HitsReachTheirChannel := by
  refine ⟨fun s p r c hr hw h0 hl hq hc => ?_, ?_, ?_⟩
  · have cls : ∀ word, (s.appended p r).classify p word = s.classify p word := fun word =>
      State.classify_eq (by simp) (by simp) p word
    have covered : ∀ g v word, (s.appended p r).fullyCovered g v word = s.fullyCovered g v word := fun g v word =>
      State.fullyCovered_eq (by simp) (by simp) g v word
    have forwarded : ∀ g v word, (s.appended p r).forwardedWord g v word Lanes.zero = s.forwardedWord g v word Lanes.zero :=
      fun g v word => State.forwardedWord_eq (by simp) (by simp) g v word _
    have same : ∀ h, ((s.appended p r).takeHit h).cap = (s.takeHit h).cap ∧ ((s.appended p r).takeHit h).ev = (s.takeHit h).ev :=
      State.takeHit_capture (by simp) (by simp) (by simp)
    rw [exec_requestAccept_of_room hr hw h0 hl, State.moveOn_of_last (by rw [State.appended_port, if_pos rfl]) hq]
    refine ⟨_, rfl, fun word m d tag e => ?_, fun word tag g v e hv hcov => ?_, fun word tag e hn => ?_⟩
    · subst e
      obtain ⟨h1, h2⟩ := State.enterHead_write_capture (s := s.appended p (.write word m d tag)) (m := m) (d := d) (tag := tag)
        ((congrArg _ (cls word)).trans hc)
      exact ⟨h1.trans (same _).1, h2.trans (same _).2⟩
    · subst e
      rw [State.enterHead_of_covered (by rw [cls]; exact hv) (by rw [covered]; exact hcov),
        State.hitFor_of_channel ((congrArg _ (cls word)).trans hc), forwarded]
      obtain ⟨h1, h2⟩ := State.takeHit_capture (s := s.appended p (.read word tag))
        (t := (((s.appended p (.read word tag)).progressFirst p Progress.isBehind
          (.answered ⟨.okay, some (s.forwardedWord g v word Lanes.zero)⟩)).countPort p fun c =>
          { c with forwarded := c.forwarded + 1 })) (by simp) (by simp) (by simp)
        ⟨c, p, .read, word, 0xFF, s.forwardedWord g v word Lanes.zero, false⟩
      exact ⟨h1.trans (same _).1, h2.trans (same _).2⟩
    · subst e
      rw [State.enterHead_of_read (by intro g v hv; rw [covered]; exact hn g v (by rw [← cls]; exact hv))]
      simp
  · intro s p r cls c word m d tag pre post hr hl hg ho hq hc
    have row : exec .grant s = .next s.grant := congrArg Host.Outcome.next (State.awake_of_high hr _)
    obtain ⟨eq, port⟩ := State.grant_of_head hl hg hq ho
    obtain ⟨before, behind⟩ := queueOrdered_around (hq ▸ ho)
    have settled : ∀ x ∈ pre ++ [⟨r, .onM cls⟩], x.progress.isUnsettled = false := fun x hx => by
      rcases List.mem_append.mp hx with hx | hx
      · exact before x hx
      · rw [List.mem_singleton.mp hx]; rfl
    have moved := State.moveOn_of_write (s := s.headSent p r cls) (word := word) (m := m) (d := d) (tag := tag)
      (pre := pre ++ [⟨r, .onM cls⟩]) (post := post) (by rw [port]; simp) settled fun x hx => behind x (List.mem_cons_of_mem _ hx)
    have same : (s.headSent p r cls).classify p word = s.classify p word :=
      State.classify_eq (by simp [State.headSent]) (by simp [State.headSent]) p word
    rw [row, eq, moved]
    obtain ⟨h1, h2⟩ := State.enterHead_write_capture (s := s.headSent p r cls) (m := m) (d := d) (tag := tag)
      ((congrArg _ same).trans hc)
    obtain ⟨h3, h4⟩ := State.takeHit_capture (s := s) (t := s.headSent p r cls) (by simp [State.headSent])
      (by simp [State.headSent]) (by simp [State.headSent]) ⟨c, p, .write, word, m, d, false⟩
    exact ⟨_, rfl, h1.trans h3, h2.trans h4⟩
  · intro s p t₁ t₂ tag k q rest word cls c status memory pre post hr ho hq hpre hc
    rw [exec_memoryResponse_of_port hr ho]
    generalize hu : s.withArb { s.arb with outstanding := rest } = u
    have hq' : (u.port p).queue = pre ++ ⟨.read word t₂, .onM cls⟩ :: post := by subst hu; simpa using hq
    rw [State.routeToPort_read (State.firstRequest_onM hq' hpre), State.hitFor_of_channel hc]
    have answer := State.readAnswer_eq (s := s) (u := u) (by subst hu; rfl) (by subst hu; rfl) cls word status memory
    rw [answer]
    refine ⟨_, rfl, ?_⟩
    refine State.takeHit_capture ?_ ?_ ?_ _
    · subst hu; cases status <;> simp
    · rw [(u.memoryAnswered_frame p _ cls status memory).2.2]
      subst hu
      cases status <;> rfl
    · subst hu; cases status <;> simp

end Sys2Proof.Machine

/-! PROOFS. The acknowledgement of a drain write: the entry settled, the generation counted and retired, leftover writes
counted off. -/

namespace Sys2Proof.Machine

open Sys2Proof

/-! ## The entry settled (R21, R54, R61) -/

/-- A group after one of its entries is acknowledged. -/
def Group.settled (i : PoolIndex) (word : Option WordIndex) (status : Status) (x : Group) : Group :=
  { x with
    drainList := x.drainList.erase i
    firstFault := if status = .error then x.firstFault.or word else x.firstFault
    counts := { x.counts with
      drained := x.counts.drained + (if status = .okay then 1 else 0)
      failed := x.counts.failed + (if status = .error then 1 else 0) } }

section
variable {s : State} {g : GroupId} {i : PoolIndex} (status : Status)

theorem State.settleEntry_group (h : i ∈ (s.group g).drainList) (x : GroupId) : (s.settleEntry g i status).group x =
    if x = g then (s.group g).settled i ((s.entry i).map (·.word)) status else s.group x := by
  unfold State.settleEntry
  rw [if_pos h]
  generalize freeEntries [i] s.pool = pool
  cases status with
  | okay =>
    by_cases e : x = g
    · subst e; simp [Group.settled]
    · simp [e, State.group_withGroup_ne _ (Ne.symm e)]
  | error =>
    by_cases e : x = g
    · subst e; simp [Group.settled]
    · simp [e, State.group_withGroup_ne _ (Ne.symm e)]

theorem State.settleEntry_entry (h : i ∈ (s.group g).drainList) (j : PoolIndex) : (s.settleEntry g i status).entry j =
    if j = i then none else s.entry j := by
  have pool : (s.settleEntry g i status).pool = (s.withPool (freeEntries [i] s.pool)).pool := by
    unfold State.settleEntry
    rw [if_pos h]
    generalize freeEntries [i] s.pool = pool
    cases status <;> simp
  rw [State.entry_eq pool, State.entry_freeEntries]
  simp

theorem State.settleEntry_bit (h : i ∈ (s.group g).drainList) (k : Fin 19) :
    (s.settleEntry g i status).ev.causes.getLsbD k.val =
      (s.ev.causes.getLsbD k.val || (decide (k.val = 8 + g.val) && decide (status = .error))) := by
  unfold State.settleEntry
  rw [if_pos h]
  generalize freeEntries [i] s.pool = pool
  cases status with
  | okay => simp
  | error =>
    rw [State.raise_bit]
    simp only [decide_true, Bool.and_true]
    rfl

/-- Whatever the acknowledged entry, its group keeps its settings. -/
theorem State.settleEntry_logCommits (s : State) (g : GroupId) (i : PoolIndex) (status : Status) (x : GroupId) :
    ((s.settleEntry g i status).group x).logCommits = (s.group x).logCommits := by
  by_cases h : i ∈ (s.group g).drainList
  · rw [State.settleEntry_group status h]
    split
    · rename_i e; subst e; rfl
    · rfl
  · unfold State.settleEntry
    rw [if_neg h]

end

/-! ## The drain engine at an acknowledgement -/

/-- The drain engine's part of an acknowledgement, before the retries (R54, R61). -/
def State.acknowledged (g : GroupId) (i : PoolIndex) (status : Status) (s : State) : State :=
  if s.drain.leftovers.isEmpty then (s.settleEntry g i status).ackGeneration status
  else (s.settleEntry g i status).ackLeftover

theorem State.ackDrain_eq (s : State) (g : GroupId) (i : PoolIndex) (status : Status) :
    s.ackDrain g i status = (s.acknowledged g i status).retryHolds fun _ => true := rfl

theorem State.retire_arb (s : State) (d : Drain) : (s.retire d).arb.outstanding = s.arb.outstanding := by
  unfold State.retire
  dsimp only
  split <;> simp [State.refreshEscalated]

theorem State.ackGeneration_outstanding (s : State) (status : Status) :
    (s.ackGeneration status).arb.outstanding = s.arb.outstanding := by
  unfold State.ackGeneration
  split
  · dsimp only
    split
    · rw [State.retire_arb]; simp
    · simp
  · rfl

theorem State.retire_causesStand (s : State) (d : Drain) : s.causesStand [17, 18] (s.retire d) := by
  unfold State.retire
  dsimp only
  split
  · exact (State.causesStand.of_ev (by simp)).trans (State.handRecord_causesStand _ (by decide) (by decide) _)
  · exact .of_ev (by simp)

theorem State.ackGeneration_causesStand (s : State) (status : Status) : s.causesStand [17, 18] (s.ackGeneration status) := by
  unfold State.ackGeneration
  split
  · dsimp only
    split
    · exact (State.causesStand.of_ev (by simp)).trans (State.retire_causesStand _ _)
    · exact .of_ev (by simp)
  · exact .refl s

section
variable (s : State) (g : GroupId) (i : PoolIndex) (status : Status)

/-- The drain engine's part changes nothing of the entry's groups, the ports and the pool. -/
theorem State.acknowledged_frame :
    (s.acknowledged g i status).pool = (s.settleEntry g i status).pool ∧
    (s.acknowledged g i status).groups = (s.settleEntry g i status).groups ∧
    (s.acknowledged g i status).holds = s.holds ∧ (s.acknowledged g i status).portA = s.portA ∧
    (s.acknowledged g i status).portB = s.portB ∧ (s.acknowledged g i status).windows = s.windows ∧
    (s.acknowledged g i status).tb = s.tb ∧ (s.acknowledged g i status).op = s.op ∧
    (s.acknowledged g i status).mgmt = s.mgmt ∧
    (s.acknowledged g i status).arb.outstanding = s.arb.outstanding := by
  unfold State.acknowledged
  split
  · exact ⟨by simp, by simp, by simp, by simp, by simp, by simp, by simp, by simp, by simp,
      (State.ackGeneration_outstanding _ _).trans (by simp)⟩
  · exact ⟨by simp, by simp, by simp, by simp, by simp, by simp, by simp, by simp, by simp, by simp⟩

theorem State.acknowledged_causesStand :
    (s.settleEntry g i status).causesStand [17, 18] (s.acknowledged g i status) := by
  unfold State.acknowledged
  split
  · exact State.ackGeneration_causesStand _ _
  · exact .of_ev (by simp)

end

theorem exec_memoryResponse_of_drain {s : State} (hr : s.resetLow = false) {g : GroupId} {i : PoolIndex} {q : BusRequest}
    {rest : List Outstanding} (ho : s.arb.outstanding = ⟨.drain g i, q⟩ :: rest) (status : Status) (memory : Lanes)
    (tag : Tag) : exec (.memoryResponse status memory tag) s =
    .next ((s.withArb { s.arb with outstanding := rest }).ackDrain g i status) := by
  refine congrArg Host.Outcome.next ((State.awake_of_high hr _).trans ?_)
  simp only [State.memoryResponse, ho]

theorem exec_memoryResponse_of_none {s : State} (hr : s.resetLow = false) (ho : s.arb.outstanding = []) (status : Status)
    (memory : Lanes) (tag : Tag) : exec (.memoryResponse status memory tag) s = .next s := by
  refine congrArg Host.Outcome.next ((State.awake_of_high hr _).trans ?_)
  simp only [State.memoryResponse, ho]

/-- Settles O45. -/
theorem memoryAcknowledgesADrainWrite : Obligations.MemoryAcknowledgesADrainWrite := by
  intro s tag status memory hr
  refine ⟨fun ho => exec_memoryResponse_of_none hr ho status memory tag, fun g i e q rest ho hi he => ?_⟩
  rw [exec_memoryResponse_of_drain hr ho, State.ackDrain_eq]
  generalize hu : s.withArb { s.arb with outstanding := rest } = u
  have hi' : i ∈ (u.group g).drainList := by subst hu; exact hi
  obtain ⟨pool, groups, holds, a, b, -, tb, op, mgmt, out⟩ := u.acknowledged_frame g i status
  have group : ∀ x, (u.acknowledged g i status).group x =
      if x = g then (s.group g).settled i (some e.word) status else s.group x := fun x => by
    rw [State.group_eq groups, State.settleEntry_group status hi']
    subst hu
    rw [show State.entry i (s.withArb { s.arb with outstanding := rest }) = some e from he]
    rfl
  have same := ((u.acknowledged g i status).retryHolds_group (fun _ => true) g).1.same
  rw [group, if_pos rfl] at same
  refine ⟨_, rfl, ?_, ?_, ?_, ?_, ?_, ?_, ?_, ?_, fun h => ?_, fun hh => ?_⟩
  · rw [(State.retryHolds_frame _ _).2.2.2.1, out]
    subst hu; rfl
  · rw [(State.retryHolds_frame _ _).2.2.2.2.1, tb]
    subst hu; rfl
  · rw [(State.retryHolds_frame _ _).2.1, op]
    subst hu; rfl
  · rw [(State.retryHolds_frame _ _).2.2.2.2.2.1, mgmt]
    subst hu; rfl
  · rw [same]; rfl
  · rw [same]; rfl
  · rw [same]; rfl
  · rw [same]; rfl
  · have bit := State.settleEntry_bit status hi' ⟨8 + h.val, by omega⟩
    have ack := u.acknowledged_causesStand g i status ⟨8 + h.val, by omega⟩ (by simp; omega)
    have retry := (u.acknowledged g i status).retryHolds_causesStand (fun _ => true) ⟨8 + h.val, by omega⟩ (by simp; omega)
    refine (retry.trans (ack.trans bit)).trans ?_
    subst hu
    simp [Fin.val_inj]
  · have none : (u.acknowledged g i status).holds = [] := by rw [holds]; subst hu; exact hh
    rw [State.retryHolds_of_none none]
    refine ⟨by rw [a]; subst hu; rfl, by rw [b]; subst hu; rfl, fun h hne => by rw [group, if_neg hne], fun j => ?_⟩
    rw [State.entry_eq pool, State.settleEntry_entry status hi']
    subst hu
    rfl

/-! ## Retirement (R55, R56) -/

/-- A record only joins the capture queue at its tail (R146). -/
theorem State.handRecord_extends (s : State) (r : CaptureRecord) :
    ∃ more : List StoredRecord, (s.handRecord r).cap.queue = s.cap.queue ++ more := by
  unfold State.handRecord
  split
  · exact ⟨_, by simp; rfl⟩
  · exact ⟨[], by simp⟩

theorem Recording.extends {s t : State} (h : Recording s t) :
    ∃ more : List StoredRecord, t.cap.queue = s.cap.queue ++ more := by
  cases h with
  | elsewhere hev hcap => exact ⟨[], by rw [hcap]; simp⟩
  | raise c hc => exact ⟨[], by simp⟩
  | hit h =>
    unfold State.takeHit
    dsimp only
    repeat' split
    · exact ⟨[], by simp⟩
    · exact ⟨[], by simp⟩
    · exact ⟨[], by simp⟩
    · obtain ⟨more, hm⟩ := State.handRecord_extends (s.withChannel h.channel _) _
      exact ⟨more, hm⟩
  | record r => exact s.handRecord_extends r

theorem Recordings.extends {s t : State} (h : Recordings s t) :
    ∃ more : List StoredRecord, t.cap.queue = s.cap.queue ++ more :=
  h.keeps (P := fun u => ∃ more : List StoredRecord, u.cap.queue = s.cap.queue ++ more) (fun u v hu hr => by
    obtain ⟨x, hx⟩ := hu
    obtain ⟨y, hy⟩ := hr.extends
    exact ⟨x ++ y, by rw [hy, hx, List.append_assoc]⟩) ⟨[], by simp⟩

/-- The head of the drain queue, taken up once nothing is left over (R51, R55, R61). -/
def Drain.woken (d : Drain) : Drain := { d with phase := if d.phase = .waiting then .issuing else d.phase }

/-- The queue at a wake of its head. -/
def wokenQueue : List Drain → List Drain
  | [] => []
  | d :: rest => d.woken :: rest

theorem State.wakeHead_drain {s : State} (h : s.drain.leftovers = []) :
    s.wakeHead.drain = { s.drain with queue := wokenQueue s.drain.queue } := by
  unfold State.wakeHead
  split
  · rename_i d rest hq
    by_cases hp : d.phase = .waiting
    · rw [if_pos ⟨hp, h⟩]
      simp [hq, hp, wokenQueue, Drain.woken]
    · rw [if_neg (fun k => hp k.1)]
      have same : d.woken = d := by simp [Drain.woken, hp]
      rw [hq, wokenQueue, same, ← hq]
  · rename_i hq
    rw [hq, wokenQueue, ← hq]

theorem State.wakeHead_of_leftovers {s : State} (h : s.drain.leftovers ≠ []) : s.wakeHead = s := by
  unfold State.wakeHead
  split
  · exact if_neg fun k => h k.2
  · rfl

theorem wokenQueue_isEmpty (q : List Drain) : (wokenQueue q).isEmpty = q.isEmpty := by cases q <;> rfl

theorem wokenQueue_late (q : List Drain) : (wokenQueue q).any (·.late) = q.any (·.late) := by cases q <;> rfl

theorem Drain.acknowledged_eq (status : Status) (d : Drain) : d.acknowledged status = { d with
    outstanding := d.outstanding - 1
    drained := if status = .okay then d.drained + 1 else d.drained
    failed := if status = .error then d.failed + 1 else d.failed } := by cases status <;> rfl

/-- A retirement before its COMMIT record. -/
def State.retired (s : State) : State :=
  (s.withDrain { s.drain with queue := s.drain.queue.tail }).wakeHead.refreshEscalated.refreshBusy

theorem State.retire_eq (s : State) (d : Drain) : s.retire d = if (s.group d.group).logCommits then
    s.retired.handRecord (.commit d.group d.sequence d.stamp d.drained d.failed d.late) else s.retired := rfl

theorem State.refreshBusy_drain (s : State) : s.refreshBusy.drain =
    { s.drain with commitBusy := !(s.drain.queue.isEmpty && s.drain.leftovers.isEmpty) } := rfl

theorem State.retired_drain {s : State} (h : s.drain.leftovers = []) : s.retired.drain =
    { queue := wokenQueue s.drain.queue.tail, leftovers := [], commitBusy := !s.drain.queue.tail.isEmpty } := by
  have woken := State.wakeHead_drain (s := s.withDrain { s.drain with queue := s.drain.queue.tail }) h
  unfold State.retired
  rw [State.refreshBusy_drain]
  refine congrArg (fun d : DrainEngine => { d with commitBusy := !(d.queue.isEmpty && d.leftovers.isEmpty) }) woken |>.trans ?_
  simp [wokenQueue_isEmpty, h]

theorem State.retired_arb {s : State} (h : s.drain.leftovers = []) :
    s.retired.arb = { s.arb with escalated := s.drain.queue.tail.any (·.late) } := by
  have woken := State.wakeHead_drain (s := s.withDrain { s.drain with queue := s.drain.queue.tail }) h
  refine (congrArg (fun d : DrainEngine => { s.arb with escalated := d.queue.any (·.late) }) woken |> Eq.trans ?_).trans ?_
  · simp [State.retired, State.refreshEscalated, State.refreshBusy]
  · simp [wokenQueue_late]

theorem State.retire_drain (s : State) (d : Drain) :
    (s.retire d).drain = s.retired.drain ∧ (s.retire d).arb = s.retired.arb := by
  rw [State.retire_eq]
  split
  · exact ⟨by simp, by simp⟩
  · exact ⟨rfl, rfl⟩

section
variable {s : State} {d : Drain} {rest : List Drain} (status : Status)

/-- An acknowledgement that is not the last of a CLOSING generation is only counted (R54). -/
theorem State.ackGeneration_of_more (hq : s.drain.queue = d :: rest) (h : d.phase ≠ .closing ∨ 1 < d.outstanding) :
    s.ackGeneration status = s.withDrain { s.drain with queue := d.acknowledged status :: rest } := by
  unfold State.ackGeneration
  rw [hq]
  refine if_neg fun k => ?_
  rw [Drain.acknowledged_eq] at k
  have := k.2
  dsimp only at this
  rcases h with h | h
  · exact h k.1
  · omega

/-- The last acknowledgement of a CLOSING generation retires it (R55). -/
theorem State.ackGeneration_of_last (hq : s.drain.queue = d :: rest) (hp : d.phase = .closing) (ho : d.outstanding = 1) :
    s.ackGeneration status =
      (s.withDrain { s.drain with queue := d.acknowledged status :: rest }).retire (d.acknowledged status) := by
  unfold State.ackGeneration
  rw [hq]
  refine if_pos ?_
  rw [Drain.acknowledged_eq]
  exact ⟨hp, by dsimp only; omega⟩

end

theorem State.ackLeftover_drain {s : State} {x : GroupId × PoolIndex} {left : List (GroupId × PoolIndex)}
    (h : s.drain.leftovers = x :: left) : s.ackLeftover.drain = {
      queue := if left = [] then wokenQueue s.drain.queue else s.drain.queue
      leftovers := left
      commitBusy := !(s.drain.queue.isEmpty && left.isEmpty) } := by
  unfold State.ackLeftover
  by_cases e : left = []
  · have woken := State.wakeHead_drain (s := s.withDrain { s.drain with leftovers := s.drain.leftovers.tail })
      (by rw [h]; exact e)
    rw [State.refreshBusy_drain]
    refine congrArg (fun d : DrainEngine => { d with commitBusy := !(d.queue.isEmpty && d.leftovers.isEmpty) }) woken |>.trans ?_
    simp [wokenQueue_isEmpty, h, e]
  · rw [State.wakeHead_of_leftovers (by simpa [h] using e)]
    simp [State.refreshBusy, h, e]

/-- What the retries after an acknowledgement leave alone, and the records they bring. -/
theorem State.ackDrain_spec (s : State) (g : GroupId) (i : PoolIndex) (status : Status) :
    (s.ackDrain g i status).drain = (s.acknowledged g i status).drain ∧
    (s.ackDrain g i status).arb = (s.acknowledged g i status).arb ∧
    (∃ more : List StoredRecord, (s.ackDrain g i status).cap.queue = (s.acknowledged g i status).cap.queue ++ more) ∧
    (s.holds = [] → (s.ackDrain g i status).cap = (s.acknowledged g i status).cap) := by
  rw [State.ackDrain_eq]
  refine ⟨by simp, by simp, (State.retryHolds_records (s := s.acknowledged g i status) fun _ => true).extends, fun h => ?_⟩
  rw [State.retryHolds_of_none ((s.acknowledged_frame g i status).2.2.1.trans h)]

/-- Settles O46: the acknowledgement counted, the generation retired, the leftover write counted off. -/
theorem acknowledgementsAreCountedAndRetire : Obligations.AcknowledgementsAreCountedAndRetire := by
  refine ⟨fun s tag status memory g i q items d rest hr ho hl hq => ?_,
    fun s tag status memory g i q items x left hr ho hl => ?_⟩
  · rw [exec_memoryResponse_of_drain hr ho, ← Drain.acknowledged_eq status d]
    generalize hu : s.withArb { s.arb with outstanding := items } = u
    obtain ⟨drain, arb, more, cap⟩ := u.ackDrain_spec g i status
    have acked : u.acknowledged g i status = (u.settleEntry g i status).ackGeneration status := by
      subst hu; simp [State.acknowledged, hl]
    have settledDrain : (u.settleEntry g i status).drain = s.drain := by subst hu; simp
    have settledArb : (u.settleEntry g i status).arb = { s.arb with outstanding := items } := by subst hu; simp
    have settledCap : (u.settleEntry g i status).cap = s.cap := by subst hu; simp
    have queue := congrArg DrainEngine.queue settledDrain
    rw [hq] at queue
    refine ⟨fun h => ⟨_, rfl, ?_, ?_⟩, fun hp h1 => ⟨_, rfl, ?_⟩⟩
    · rw [drain, acked, State.ackGeneration_of_more status queue h]
      exact congrArg (fun e : DrainEngine => { e with queue := d.acknowledged status :: rest }) settledDrain
    · rw [arb, acked, State.ackGeneration_of_more status queue h]
      exact settledArb
    · rw [State.ackGeneration_of_last status queue hp h1] at acked
      generalize hv : (u.settleEntry g i status).withDrain
        { (u.settleEntry g i status).drain with queue := d.acknowledged status :: rest } = v at acked
      have leftovers : v.drain.leftovers = [] := by
        subst hv; exact (congrArg DrainEngine.leftovers settledDrain).trans hl
      have tail : v.drain.queue.tail = rest := by subst hv; simp
      have vcap : v.cap = s.cap := by subst hv; simpa using settledCap
      obtain ⟨rd, ra⟩ := v.retire_drain (d.acknowledged status)
      rw [← acked, State.retired_drain leftovers, tail] at rd
      rw [← acked, State.retired_arb leftovers, tail] at ra
      have log : (v.group (d.acknowledged status).group).logCommits = (s.group d.group).logCommits := by
        have := State.settleEntry_logCommits u g i status d.group
        subst hv hu
        rw [Drain.acknowledged_eq]
        exact this
      have rcap : v.retired.cap = s.cap := by
        unfold State.retired
        simpa [State.refreshBusy, State.refreshEscalated] using vcap
      rw [drain, arb, rd, ra]
      refine ⟨rfl, fun x more hx => by subst hx; rfl, fun h => by subst h; rfl, by cases rest <;> rfl, rfl, fun hlog room => ?_,
        fun hlog none => ?_⟩
      · obtain ⟨more, hm⟩ := more
        rw [acked, State.retire_eq, log, hlog, if_pos rfl, State.handRecord_of_room _ (by rw [rcap]; exact room)] at hm
        refine ⟨more, hm.trans ?_⟩
        simp [rcap, Drain.acknowledged_eq]
      · rw [cap (by subst hu; exact none), acked, State.retire_eq, log, hlog, if_neg (by decide), rcap]
  · rw [exec_memoryResponse_of_drain hr ho]
    generalize hu : s.withArb { s.arb with outstanding := items } = u
    obtain ⟨drain, arb, -, cap⟩ := u.ackDrain_spec g i status
    have acked : u.acknowledged g i status = (u.settleEntry g i status).ackLeftover := by
      subst hu; simp [State.acknowledged, hl]
    have settledDrain : (u.settleEntry g i status).drain = s.drain := by subst hu; simp
    rw [acked, State.ackLeftover_drain ((congrArg DrainEngine.leftovers settledDrain).trans hl), settledDrain] at drain
    refine ⟨_, rfl, ?_⟩
    rw [drain]
    refine ⟨rfl, rfl, fun h => if_neg h, fun d rest h hd => ?_, fun h => ?_, fun h => ?_, ?_⟩
    · dsimp only
      rw [if_pos h, hd]
      rfl
    · dsimp only
      rw [h]
      exact ite_self _
    · rw [cap (by subst hu; exact h), acked]
      subst hu; simp
    · rw [arb, acked]
      subst hu; simp

end Sys2Proof.Machine

/-! PROOFS. The hits at the capture channels: qualification, the prescale and skip counts, the record produced. -/

namespace Sys2Proof.Machine

open Sys2Proof

/-! ## Qualification (R138) -/

/-- Two bytes agree under a mask when they agree bit by bit where the mask has a one. -/
theorem and_eq_and_iff (x y m : Byte) : x &&& m = y &&& m ↔ ∀ b : Fin 8, m.getLsbD b = true → x.getLsbD b = y.getLsbD b := by
  constructor
  · intro h b hb
    have := congrArg (·.getLsbD b) h
    simpa only [BitVec.getLsbD_and, hb, Bool.and_true] using this
  · intro h
    refine BitVec.eq_of_getLsbD_eq fun i hi => ?_
    rw [BitVec.getLsbD_and, BitVec.getLsbD_and]
    cases hm : m.getLsbD i
    · simp
    · rw [h ⟨i, hi⟩ hm]

theorem Direction.admits_iff (d : Direction) (a : Access) :
    d.admits a = true ↔ d = .both ∨ d = .read ∧ a = .read ∨ d = .write ∧ a = .write := by
  cases d <;> cases a <;> decide

theorem Channel.laneMatches_iff (ch : Channel) (h : Hit) (k : Fin 8) : ch.laneMatches h k = true ↔
    (ch.matchMask[k] ≠ 0 → h.mask.getLsbD k = true ∧ ∀ b : Fin 8, ch.matchMask[k].getLsbD b = true →
      h.data[k].getLsbD b = ch.matchValue[k].getLsbD b) := by
  unfold Channel.laneMatches
  rw [Bool.or_eq_true, Bool.and_eq_true, decide_eq_true_iff, decide_eq_true_iff, and_eq_and_iff]
  exact Decidable.or_iff_not_imp_left

theorem Channel.qualifies_iff (ch : Channel) (h : Hit) : ch.qualifies h = true ↔
    (ch.direction = .both ∨ ch.direction = .read ∧ h.direction = .read ∨ ch.direction = .write ∧ h.direction = .write) ∧
    ∀ k : Fin 8, ch.matchMask[k] ≠ 0 → h.mask.getLsbD k = true ∧ ∀ b : Fin 8, ch.matchMask[k].getLsbD b = true →
      h.data[k].getLsbD b = ch.matchValue[k].getLsbD b := by
  unfold Channel.qualifies
  rw [Bool.and_eq_true, Direction.admits_iff, List.all_eq_true]
  exact and_congr_right fun _ => ⟨fun a k => (ch.laneMatches_iff h k).mp (a k (List.mem_finRange k)),
    fun a k _ => (ch.laneMatches_iff h k).mpr (a k)⟩

/-! ## One hit (R137, R139, R140) -/

section
variable {s : State} {h : Hit}

/-- The channel after a hit that qualifies. -/
def Channel.qualified (ch : Channel) : Channel := { ch with hits := ch.hits + 1, qualifying := ch.qualifying + 1 }

theorem Channel.skipped_of_armed {ch : Channel} (hs : ch.state = .armed) : ch.skipped =
    { ch with skipCount := saturatingSucc ch.skipCount, prescaleCount := ch.prescaleCount + 1 } := by
  unfold Channel.skipped
  rw [if_pos hs]

theorem Channel.skipped_of_gated {ch : Channel} (hs : ch.state = .gated) :
    ch.skipped = { ch with skipCount := saturatingSucc ch.skipCount } := by
  unfold Channel.skipped
  rw [if_neg (by rw [hs]; decide)]

theorem State.takeHit_of_off (hs : (s.channel h.channel).state = .off) : s.takeHit h = s := if_pos hs

theorem State.takeHit_of_unqualified (hs : (s.channel h.channel).state ≠ .off)
    (hq : (s.channel h.channel).qualifies h = false) :
    s.takeHit h = s.withChannel h.channel { s.channel h.channel with hits := (s.channel h.channel).hits + 1 } :=
  (if_neg hs).trans (if_pos (congrArg (!·) hq))

theorem State.takeHit_of_qualified (hs : (s.channel h.channel).state ≠ .off)
    (hq : (s.channel h.channel).qualifies h = true) : s.takeHit h =
    if (s.channel h.channel).state = .gated ∨
      (s.channel h.channel).prescaleCount.toNat < (s.channel h.channel).prescale.toNat then
      s.withChannel h.channel (s.channel h.channel).qualified.skipped
    else (s.withChannel h.channel (s.channel h.channel).qualified.recorded).handRecord
      ((s.channel h.channel).accessRecord h s.now) :=
  (if_neg hs).trans (if_neg (by
    show ¬ (!(s.channel h.channel).qualifies h) = true
    rw [hq]; decide))

/-- A hit in ARMED below the prescale is counted on and skipped. -/
theorem State.takeHit_of_below (hs : (s.channel h.channel).state = .armed)
    (hq : (s.channel h.channel).qualifies h = true)
    (hp : (s.channel h.channel).prescaleCount.toNat < (s.channel h.channel).prescale.toNat) :
    s.takeHit h = s.withChannel h.channel { s.channel h.channel with
      hits := (s.channel h.channel).hits + 1
      qualifying := (s.channel h.channel).qualifying + 1
      skipCount := saturatingSucc (s.channel h.channel).skipCount
      prescaleCount := (s.channel h.channel).prescaleCount + 1 } := by
  rw [State.takeHit_of_qualified (by rw [hs]; decide) hq, if_pos (.inr hp)]
  rw [Channel.skipped_of_armed (ch := (s.channel h.channel).qualified) hs]
  rfl

/-- A hit in ARMED at the prescale produces its record. -/
theorem State.takeHit_of_reached (hs : (s.channel h.channel).state = .armed)
    (hq : (s.channel h.channel).qualifies h = true)
    (hp : (s.channel h.channel).prescale.toNat ≤ (s.channel h.channel).prescaleCount.toNat) :
    s.takeHit h = (s.withChannel h.channel (s.channel h.channel).qualified.recorded).handRecord
      ((s.channel h.channel).accessRecord h s.now) := by
  rw [State.takeHit_of_qualified (by rw [hs]; decide) hq, if_neg (by rw [hs]; simpa using hp)]

end

/-- The data of a record, zero outside the hit's mask. -/
theorem Lanes.masked_eq (m : LaneSet) (d : Lanes) :
    Lanes.masked m d = Vector.ofFn fun k => if m.getLsbD k then d[k] else 0 := by
  unfold Lanes.masked Lanes.overlay
  congr 1
  funext k
  simp [Lanes.zero]

theorem State.handRecord_queue (s : State) (r : CaptureRecord) : (s.handRecord r).cap.queue =
    if s.cap.queue.length < 32 then s.cap.queue ++ [⟨r, s.cap.lost⟩] else s.cap.queue := by
  by_cases h : s.cap.queue.length < 32
  · rw [State.handRecord_of_room r h, if_pos h]
    simp
  · rw [State.handRecord_of_full r (Nat.le_of_not_lt h), if_neg h]
    simp

/-- What a hit that produces its record leaves in the capture unit (R139, R144, R146). -/
theorem State.takeHit_records {s : State} {h : Hit} (hs : (s.channel h.channel).state = .armed)
    (hq : (s.channel h.channel).qualifies h = true)
    (hp : (s.channel h.channel).prescale.toNat ≤ (s.channel h.channel).prescaleCount.toNat) :
    (s.takeHit h).channel h.channel = (s.channel h.channel).qualified.recorded ∧
    (∀ c, c ≠ h.channel → (s.takeHit h).channel c = s.channel c) ∧
    (s.takeHit h).cap.queue = if s.cap.queue.length < 32 then s.cap.queue ++ [⟨.access h.channel
        ⟨s.tb.cycle, s.tb.counter, s.tb.running⟩ h.port h.direction h.word h.error
        (if (s.channel h.channel).recordData then
          some (h.mask, Vector.ofFn fun k => if h.mask.getLsbD k then h.data[k] else 0) else none)
        (s.channel h.channel).skipCount, s.cap.lost⟩] else s.cap.queue := by
  rw [State.takeHit_of_reached hs hq hp]
  refine ⟨by simp, fun c hc => ?_, ?_⟩
  · rw [State.handRecord_channel, State.channel_withChannel_ne _ (Ne.symm hc)]
  · rw [State.handRecord_queue, ← Lanes.masked_eq]
    rfl

/-! ## Many hits (R139) -/

theorem State.withChannel_self (s : State) (c : ChannelId) : s.withChannel c (s.channel c) = s := by
  simp [State.withChannel, State.channel, State.withCap]

theorem State.withChannel_withChannel (s : State) (c : ChannelId) (x y : Channel) :
    (s.withChannel c x).withChannel c y = s.withChannel c y := by
  simp [State.withChannel, State.withCap]

/-- A channel from restarted counts after `k` skipped hits. -/
def Channel.thinned (ch : Channel) (k : Nat) : Channel :=
  { ch with
    hits := ch.hits + BitVec.ofNat 32 k
    qualifying := ch.qualifying + BitVec.ofNat 32 k
    prescaleCount := BitVec.ofNat 8 k
    skipCount := BitVec.ofNat 16 k }

theorem bitVec_add_ofNat_succ {w : Nat} (x : BitVec w) (k : Nat) :
    x + BitVec.ofNat w k + 1 = x + BitVec.ofNat w (k + 1) := by
  rw [BitVec.ofNat_add, BitVec.add_assoc]
  rfl

section
variable {s : State} {h : Hit} (hs : (s.channel h.channel).state = .armed)
  (hp : (s.channel h.channel).prescaleCount = 0) (hk : (s.channel h.channel).skipCount = 0)
  (hq : (s.channel h.channel).qualifies h = true)

include hs hp hk hq in
/-- The first `n` qualifying hits at a prescale of `n` produce no record. -/
theorem State.takeHit_iterate {k : Nat} (le : k ≤ (s.channel h.channel).prescale.toNat) :
    (State.takeHit h)^[k] s = s.withChannel h.channel ((s.channel h.channel).thinned k) := by
  induction k with
  | zero =>
    have same : (s.channel h.channel).thinned 0 = s.channel h.channel := by
      unfold Channel.thinned
      generalize s.channel h.channel = ch at hp hk
      cases ch
      simp_all
    rw [same, State.withChannel_self]
    rfl
  | succ k ih =>
    have lt := (s.channel h.channel).prescale.isLt
    have count : ((s.channel h.channel).thinned k).prescaleCount.toNat = k := by
      simp only [Channel.thinned, BitVec.toNat_ofNat]
      omega
    rw [Function.iterate_succ_apply', ih (by omega)]
    have here := s.channel_withChannel_same h.channel ((s.channel h.channel).thinned k)
    rw [State.takeHit_of_below (by rw [here]; exact hs) (by rw [here]; exact hq)
      (by rw [here, count]; exact le), here, State.withChannel_withChannel, saturatingSucc_word,
      if_neg (by simp only [Channel.thinned, BitVec.toNat_ofNat]; omega)]
    refine congrArg (s.withChannel h.channel) ?_
    unfold Channel.thinned
    simp only [bitVec_add_ofNat_succ, BitVec.ofNat_add]
    rfl

end

/-- Settles O49: one hit by the channel's state, then the first hits from restarted counts by induction on their number. -/
theorem prescaleThinsTheHits : Obligations.PrescaleThinsTheHits := by
  refine ⟨Channel.qualifies_iff, fun s h => ?_, fun s h hs hg hp hk hq => ?_⟩
  · have skip : saturatingSucc (s.channel h.channel).skipCount =
        if (s.channel h.channel).skipCount = 65535 then 65535 else (s.channel h.channel).skipCount + 1 := by
      rw [saturatingSucc_word]
      exact if_congr (BitVec.toNat_inj (y := 65535)) rfl rfl
    dsimp only
    rw [← skip]
    refine ⟨State.takeHit_of_off, State.takeHit_of_unqualified, fun hs hq => ?_, State.takeHit_of_below,
      State.takeHit_records⟩
    rw [State.takeHit_of_qualified (by rw [hs]; decide) hq, if_pos (.inl hs)]
    rw [Channel.skipped_of_gated (ch := (s.channel h.channel).qualified) hs]
    rfl
  · have all := State.takeHit_iterate (k := (s.channel h.channel).prescale.toNat) hs hp hk hq le_rfl
    refine ⟨fun k le => State.takeHit_iterate hs hp hk hq le, fun room => ?_⟩
    rw [Function.iterate_succ_apply', all]
    have here := s.channel_withChannel_same h.channel ((s.channel h.channel).thinned (s.channel h.channel).prescale.toNat)
    have lt := (s.channel h.channel).prescale.isLt
    obtain ⟨channel, -, queue⟩ := State.takeHit_records (h := h)
      (s := s.withChannel h.channel ((s.channel h.channel).thinned (s.channel h.channel).prescale.toNat))
      (by rw [here]; exact hs) (by rw [here]; exact hq) (by rw [here]; simp [Channel.thinned])
    rw [here] at channel queue
    refine ⟨queue.trans ?_, channel.trans ?_⟩
    · simp [room, Channel.thinned]
    · unfold Channel.recorded Channel.qualified Channel.thinned
      simp only [bitVec_add_ofNat_succ]
      rw [hg]
      generalize s.channel h.channel = ch at hs hg hp hk
      cases ch
      simp_all

end Sys2Proof.Machine

/-! PROOFS. What a change does to the ports, the windows' counts of writes in passage and the hold records: every change but
those of REQUEST_ACCEPT, RESPONSE_TAKEN and the window commands is a chain of the steps below. -/

namespace Sys2Proof.Machine

/-! ## One request of a port goes on -/

/-- The requests a port's counts show as settled: sent to memory, forwarded, placed, or answered ERROR before memory
(R112). -/
def PortCounts.settled (c : PortCounts) : Count :=
  c.passReads + c.passWrites + c.forwarded + c.stagedPlaced + c.errRejected + c.errTimeout + c.errDiscarded

/-- The oldest request of a port that a test finds goes on to a new progress: nothing else of the queue changes, and it is
counted once it is no longer unsettled (R102, R111, R112). -/
structure PortMove (test : Progress → Bool) (r : QueuedRequest) (new : Progress) (before after : PortState) : Prop where
  found : before.queue.find? (fun x => test x.progress) = some r
  unanswered : ∀ a, r.progress ≠ .answered a
  unsettled : new.isUnsettled = true → r.progress.isUnsettled = true
  queue : after.queue = setFirst test new before.queue
  waiting : after.waiting = before.waiting
  requests : after.counts.requests = before.counts.requests
  settled : after.counts.settled =
    before.counts.settled + if r.progress.isUnsettled && !new.isUnsettled then 1 else 0

/-- The queue before and after a request goes on. -/
theorem PortMove.split {test : Progress → Bool} {r : QueuedRequest} {new : Progress} {a b : PortState}
    (h : PortMove test r new a b) : ∃ pre post, a.queue = pre ++ r :: post ∧
      b.queue = pre ++ { r with progress := new } :: post ∧ (∀ x ∈ pre, test x.progress = false) := by
  obtain ⟨pre, post, hq, hr, hpre⟩ := find_split h.found
  exact ⟨pre, post, hq, by rw [h.queue, hq, setFirst_of_split new hr hpre], hpre⟩

theorem PortState.balanced_iff (p : PortState) :
    p.balanced ↔ p.counts.requests = p.counts.settled + BitVec.ofNat 32 p.unsettled := Iff.rfl

/-- A request going on keeps the balance of its port's counts (R112). -/
theorem PortMove.balanced {test : Progress → Bool} {r : QueuedRequest} {new : Progress} {a b : PortState}
    (h : PortMove test r new a b) (ha : a.balanced) : b.balanced := by
  obtain ⟨pre, post, hq, hq', -⟩ := h.split
  rw [PortState.balanced_iff] at ha ⊢
  rw [h.requests, h.settled, ha]
  unfold PortState.unsettled
  have hu := h.unsettled
  rw [hq, hq']
  simp only [List.filter_append, List.filter_cons, List.length_append]
  cases hr : r.progress.isUnsettled <;> cases hn : new.isUnsettled
  · simp
  · exact absurd (hu hn) (by simp [hr])
  · simp only [if_true, List.length_cons, Bool.true_and, Bool.not_false, Bool.false_eq_true, if_false, ← Nat.add_assoc,
      BitVec.ofNat_add, BitVec.ofNat_eq_ofNat]
    ring
  · simp

/-! ## The steps -/

/-- One step at the ports, the windows' counts and the hold records. -/
inductive HeadStep (s : State) : State → Prop
  /-- A change elsewhere. -/
  | elsewhere {t : State} (hA : t.portA = s.portA) (hB : t.portB = s.portB) (hw : t.windows = s.windows)
      (hh : t.holds = s.holds) : HeadStep s t
  /-- The oldest BEHIND request of a port without a head becomes the head, or is answered there (R102, R103). -/
  | enter {t : State} (p : Port) (r : QueuedRequest) (cls : Classification) (new : Progress) (hn : s.head p = none)
      (hp : PortMove Progress.isBehind r new (s.port p) (t.port p)) (ho : ∀ q, q ≠ p → t.port q = s.port q)
      (hh : t.holds = s.holds)
      (hw : ((new = .head cls .waiting ∨ ∃ a, new = .answered a) ∧ t.windows = s.windows) ∨
        (new = .head cls (.passage false) ∧ t.windows = (s.passage cls.window (· + 1)).windows)) : HeadStep s t
  /-- The staged write at a head is answered (R105): out of its window's count, and its hold record, if it was held, gone. -/
  | answer {t : State} (p : Port) (r : BusRequest) (cls : Classification) (place : HeadPlace) (a : Answer)
      (hp : PortMove Progress.isHead ⟨r, .head cls place⟩ (.answered a) (s.port p) (t.port p))
      (ho : ∀ q, q ≠ p → t.port q = s.port q) (hw : t.windows = (s.passage cls.window (· - 1)).windows)
      (hh : ((∃ b, place = .passage b) ∧ t.holds = s.holds) ∨
        (place = .held ∧ t.holds = s.holds.filter fun h => decide (h.port ≠ p))) : HeadStep s t
  /-- The staged write at a head is held (R15). -/
  | hold {t : State} (h : Hold) (r : BusRequest) (cls : Classification) (b : Bool)
      (hp : PortMove Progress.isHead ⟨r, .head cls (.passage b)⟩ (.head cls .held) (s.port h.port) (t.port h.port))
      (ho : ∀ q, q ≠ h.port → t.port q = s.port q) (hw : t.windows = s.windows) (hh : t.holds = s.holds ++ [h]) :
      HeadStep s t
  /-- A waiting head is sent to memory (R104, R106). -/
  | send {t : State} (p : Port) (r : BusRequest) (cls : Classification)
      (hp : PortMove Progress.isWaiting ⟨r, .head cls .waiting⟩ (.onM cls) (s.port p) (t.port p))
      (ho : ∀ q, q ≠ p → t.port q = s.port q) (hw : t.windows = s.windows) (hh : t.holds = s.holds) : HeadStep s t
  /-- Memory answers the oldest request sent to it (R104, R106). -/
  | respond {t : State} (p : Port) (r : BusRequest) (cls : Classification) (a : Answer)
      (hp : PortMove Progress.isOnM ⟨r, .onM cls⟩ (.answered a) (s.port p) (t.port p))
      (ho : ∀ q, q ≠ p → t.port q = s.port q) (hw : t.windows = s.windows) (hh : t.holds = s.holds) : HeadStep s t
  /-- The writes in passage are marked at a RESET_DATAPATH (R23). -/
  | mark : HeadStep s s.markPassages
  /-- The hold record of a port whose head is not held is removed; no run has one. -/
  | orphan (p : Port) (hn : s.headHeld p = false) : HeadStep s (s.dropHold p)

/-- A chain of such steps. -/
abbrev HeadSteps : State → State → Prop := Relation.ReflTransGen HeadStep

theorem HeadSteps.elsewhere {s t : State} (hA : t.portA = s.portA) (hB : t.portB = s.portB) (hw : t.windows = s.windows)
    (hh : t.holds = s.holds) : HeadSteps s t := .single (.elsewhere hA hB hw hh)

/-- A chain of steps before which something else changes. -/
theorem HeadSteps.after {s u t : State} (h : HeadSteps u t) (hA : u.portA = s.portA) (hB : u.portB = s.portB)
    (hw : u.windows = s.windows) (hh : u.holds = s.holds) : HeadSteps s t :=
  Relation.ReflTransGen.trans (HeadSteps.elsewhere hA hB hw hh) h

/-- A chain of steps after which something else changes. -/
theorem HeadSteps.before {s t u : State} (h : HeadSteps s t) (hA : u.portA = t.portA) (hB : u.portB = t.portB)
    (hw : u.windows = t.windows) (hh : u.holds = t.holds) : HeadSteps s u :=
  Relation.ReflTransGen.trans h (HeadSteps.elsewhere hA hB hw hh)

section
variable (s : State)

/-! ## Heads brought in -/

theorem State.enterHead_steps {p : Port} {r : QueuedRequest} (hn : s.head p = none)
    (hf : s.firstRequest p Progress.isBehind = some r) : HeadSteps s (s.enterHead p r.request) := by
  have hb : r.progress.isBehind = true := (List.find?_eq_some_iff_append.mp hf).1
  have hu : r.progress.isUnsettled = true := by simp [Progress.isUnsettled, hb]
  have ha : ∀ a, r.progress ≠ .answered a := fun a e => by simp [e, Progress.isBehind] at hb
  have moved (new : Progress) (x : PortState) (hq : x.queue = setFirst Progress.isBehind new (s.port p).queue)
      (hw : x.waiting = (s.port p).waiting) (hr : x.counts.requests = (s.port p).counts.requests)
      (hs : x.counts.settled = (s.port p).counts.settled + if !new.isUnsettled then 1 else 0) :
      PortMove Progress.isBehind r new (s.port p) x :=
    ⟨hf, ha, fun _ => hu, hq, hw, hr, by rw [hs, hu, Bool.true_and]⟩
  have stay (cls : Classification) (place : HeadPlace) (x : PortState)
      (e : x = { s.port p with queue := setFirst Progress.isBehind (.head cls place) (s.port p).queue }) :
      PortMove Progress.isBehind r (.head cls place) (s.port p) x := by
    subst e
    exact moved _ _ rfl rfl rfl (by simp [Progress.isUnsettled, Progress.isBehind, Progress.isHead])
  unfold State.enterHead
  dsimp only
  repeat' split
  · exact .single (.enter p r (s.classify p r.request.word) _ hn (stay _ .waiting _ (by simp [State.progressFirst_port]))
      (fun q hq => by simp [State.progressFirst_port, hq]) (by simp) (.inl ⟨.inl rfl, by simp⟩))
  · exact .single (.enter p r (s.classify p r.request.word) _ hn
      (stay _ (.passage false) _ (by simp [State.progressFirst_port]))
      (fun q hq => by simp [State.progressFirst_port, hq]) (by simp)
      (.inr ⟨rfl, by simp [State.passage]; split <;> simp [State.withWindow, State.window]⟩))
  · exact .single (.enter p r (s.classify p r.request.word) _ hn (stay _ .waiting _ (by simp [State.progressFirst_port]))
      (fun q hq => by simp [State.progressFirst_port, hq]) (by simp) (.inl ⟨.inl rfl, by simp⟩))
  · refine .single (.enter p r (s.classify p r.request.word) _ hn 
      (moved _ _ (by simp [State.countPort_port, State.progressFirst_port]; rfl) ?_ ?_ ?_)
      (fun q hq => by simp [State.countPort_port, State.progressFirst_port, hq]) (by simp)
      (.inl ⟨.inr ⟨_, rfl⟩, by simp⟩))
    · simp [State.countPort_port, State.progressFirst_port]
    · simp [State.countPort_port, State.progressFirst_port]
    · simp only [State.hitFor_port, State.countPort_port, State.progressFirst_port, if_true, PortCounts.settled]
      simp only [Progress.isUnsettled, Progress.isBehind, Progress.isHead]
      simp
      ring
  · exact .single (.enter p r (s.classify p r.request.word) _ hn (stay _ .waiting _ (by simp [State.progressFirst_port]))
      (fun q hq => by simp [State.progressFirst_port, hq]) (by simp) (.inl ⟨.inl rfl, by simp⟩))

theorem State.bringHeads_steps (p : Port) (n : Nat) : ∀ s : State, HeadSteps s (s.bringHeads p n) := by
  induction n with
  | zero => exact fun s => .refl
  | succ n ih =>
    intro s
    unfold State.bringHeads
    split
    · rename_i hn hf
      exact .trans (s.enterHead_steps hn hf) (ih _)
    · exact .refl

theorem State.moveOn_steps (p : Port) : HeadSteps s (s.moveOn p) := State.bringHeads_steps _ _ _

theorem State.moveOnAll_steps (ports : List Port) : ∀ s : State, HeadSteps s (State.moveOnAll ports s) := by
  induction ports with
  | nil => exact fun s => .refl
  | cons p ports ih => exact fun s => .trans (s.moveOn_steps p) (ih _)

end

end Sys2Proof.Machine

/-! PROOFS. The chains of steps at the ports that make up the effect of each row. -/

namespace Sys2Proof.Machine

section
variable {s : State} {p : Port} {r : BusRequest} {cls : Classification} {place : HeadPlace}

/-! ## Heads answered -/

/-- A head that is answered, counted as settled once. -/
theorem State.head_portMove (hh : s.head p = some ⟨r, .head cls place⟩) {a : Answer} {x : PortState}
    (hq : x.queue = setFirst Progress.isHead (.answered a) (s.port p).queue) (hw : x.waiting = (s.port p).waiting)
    (hr : x.counts.requests = (s.port p).counts.requests) (hs : x.counts.settled = (s.port p).counts.settled + 1) :
    PortMove Progress.isHead ⟨r, .head cls place⟩ (.answered a) (s.port p) x :=
  ⟨hh, fun _ => nofun, fun h => by simp [Progress.isUnsettled, Progress.isBehind, Progress.isHead] at h, hq, hw, hr, by
    simpa [Progress.isUnsettled, Progress.isBehind, Progress.isHead] using hs⟩

theorem PortCounts.settled_withError (c : PortCounts) {reason : ErrorReason} (h : reason ≠ .downstreamError) :
    (c.withError reason).settled = c.settled + 1 := by
  cases reason with
  | downstreamError => exact absurd rfl h
  | rejectedFull | holdTimeout | discardedByReset => simp only [PortCounts.withError, PortCounts.settled]; ring

theorem PortCounts.settled_placed (c : PortCounts) (n : Count) :
    { c with stagedPlaced := c.stagedPlaced + 1, merged := n }.settled = c.settled + 1 := by
  simp only [PortCounts.settled]; ring

/-- The staged write in passage at a head is answered ERROR. -/
theorem State.answerRefused_step {b : Bool} (hh : s.head p = some ⟨r, .head cls (.passage b)⟩) {reason : ErrorReason}
    (hr : reason ≠ .downstreamError) : HeadStep s (s.answerRefused p cls r reason) := by
  have hp := State.answerRefused_port s p p cls r reason
  rw [if_pos rfl] at hp
  refine .answer p r cls (.passage b) ⟨.error, none⟩
    (hp ▸ State.head_portMove hh rfl rfl (by cases reason <;> rfl) (PortCounts.settled_withError _ hr)) (fun q hq => ?_)
    (State.passage_windows (by simp) _ _) (.inl ⟨⟨b, rfl⟩, by simp⟩)
  simp [State.answerRefused_port, hq]

/-- The held write at a head is answered ERROR, and its hold record removed. -/
theorem State.dropHold_answerRefused_step (hh : s.head p = some ⟨r, .head cls .held⟩) {reason : ErrorReason}
    (hr : reason ≠ .downstreamError) : HeadStep s ((s.dropHold p).answerRefused p cls r reason) := by
  have hp := State.answerRefused_port (s.dropHold p) p p cls r reason
  rw [if_pos rfl] at hp
  refine .answer p r cls .held ⟨.error, none⟩
    (hp ▸ State.head_portMove hh rfl rfl (by cases reason <;> rfl) (PortCounts.settled_withError _ hr)) (fun q hq => ?_)
    (State.passage_windows (by simp) _ _) (.inr ⟨rfl, by simp [State.dropHold]⟩)
  simp [State.answerRefused_port, hq]

/-- The staged write in passage at a head is placed. -/
theorem State.answerPlaced_step {b : Bool} (hh : s.head p = some ⟨r, .head cls (.passage b)⟩) (m : Bool) :
    HeadStep s (s.answerPlaced p cls m) := by
  have hp := State.answerPlaced_port s p p cls m
  rw [if_pos rfl] at hp
  refine .answer p r cls (.passage b) ⟨.okay, none⟩
    (hp ▸ State.head_portMove hh rfl rfl rfl (PortCounts.settled_placed _ _)) (fun q hq => ?_)
    (State.passage_windows (by simp) _ _) (.inl ⟨⟨b, rfl⟩, by simp⟩)
  simp [State.answerPlaced_port, hq]

/-- The held write at a head is placed, and its hold record removed. -/
theorem State.dropHold_answerPlaced_step (hh : s.head p = some ⟨r, .head cls .held⟩) (m : Bool) :
    HeadStep s ((s.dropHold p).answerPlaced p cls m) := by
  have hp := State.answerPlaced_port (s.dropHold p) p p cls m
  rw [if_pos rfl] at hp
  refine .answer p r cls .held ⟨.okay, none⟩
    (hp ▸ State.head_portMove hh rfl rfl rfl (PortCounts.settled_placed _ _)) (fun q hq => ?_)
    (State.passage_windows (by simp) _ _) (.inr ⟨rfl, by simp [State.dropHold]⟩)
  simp [State.answerPlaced_port, hq]

end

section
variable (s : State)

/-! ## Placements and retries -/

theorem State.place_steps (p : Port) (g : GroupId) (w : WordIndex) (m : LaneSet) (d : Lanes) :
    HeadSteps s (s.place p g w m d).1 := .elsewhere (by simp) (by simp) (by simp) (by simp)

@[simp] theorem State.place_head (p q : Port) (g : GroupId) (w : WordIndex) (m : LaneSet) (d : Lanes) :
    (s.place p g w m d).1.head q = s.head q := by simp [State.head, State.firstRequest]

theorem State.retryHold_steps (h : Hold) : HeadSteps s (s.retryHold h).1 := by
  unfold State.retryHold
  dsimp only
  split
  · rename_i hh
    split
    · exact (s.place_steps ..).tail (State.dropHold_answerPlaced_step (by rw [State.place_head]; exact hh) _)
    · exact (s.place_steps ..).tail (State.dropHold_answerPlaced_step (by rw [State.place_head]; exact hh) _)
    · exact (s.place_steps ..).tail (State.dropHold_answerRefused_step (by rw [State.place_head]; exact hh) (by decide))
    · exact .refl
  · exact .refl

theorem State.retryAll_steps (holds : List Hold) : ∀ s : State, HeadSteps s (State.retryAll holds s).1 := by
  induction holds with
  | nil => exact fun s => .refl
  | cons h holds ih => exact fun s => .trans (s.retryHold_steps h) (ih _)

theorem State.retryHolds_steps (concerned : Hold → Bool) : HeadSteps s (s.retryHolds concerned) :=
  .trans (State.retryAll_steps _ _) (State.moveOnAll_steps _ _)

theorem State.placeHead_steps (p : Port) : HeadSteps s (s.placeHead p) := by
  unfold State.placeHead
  dsimp only
  split
  · rename_i hh
    split
    · exact .refl
    · split
      · exact .trans (.single (State.answerRefused_step hh (by decide))) (State.moveOn_steps _ _)
      · split
        · exact .trans ((s.place_steps ..).tail (State.answerPlaced_step (by rw [State.place_head]; exact hh) _))
            (State.moveOn_steps _ _)
        · exact .trans ((s.place_steps ..).tail (State.answerPlaced_step (by rw [State.place_head]; exact hh) _))
            (State.moveOn_steps _ _)
        · exact .trans ((s.place_steps ..).tail (State.answerRefused_step (by rw [State.place_head]; exact hh) (by decide)))
            (State.moveOn_steps _ _)
        · refine .single (.hold ⟨p, _, _, _⟩ _ _ _ ⟨hh, fun _ => nofun, fun _ => rfl, ?_, ?_, ?_, ?_⟩ (fun q hq => ?_) ?_ rfl)
          all_goals simp [State.progressFirst_port, Progress.isUnsettled, Progress.isBehind, Progress.isHead]
          exact fun e => absurd e hq
  · exact .refl

/-! ## Commits, aborts and expiries -/

theorem State.takeCommit_steps (g : GroupId) : HeadSteps s (s.takeCommit g) := by
  rw [State.takeCommit_eq]
  refine .after (State.retryHolds_steps _ _) ?_ ?_ ?_ ?_ <;> (unfold State.committed; split <;> simp)

theorem State.slotAt_steps (g : GroupId) : HeadSteps s (s.slotAt g) := by
  unfold State.slotAt; split
  · exact .elsewhere (by simp) (by simp) (by simp) (by simp)
  · exact s.takeCommit_steps g

theorem State.slotsAt_steps (groups : List GroupId) : ∀ s : State, HeadSteps s (State.slotsAt groups s) := by
  induction groups with
  | nil => exact fun s => .refl
  | cons g groups ih => exact fun s => .trans (s.slotAt_steps g) (ih _)

theorem State.commitNow_steps (groups : List GroupId) : ∀ s : State, HeadSteps s (State.commitNow groups s).1 := by
  induction groups with
  | nil => exact fun s => .refl
  | cons g groups ih =>
    intro s
    unfold State.commitNow
    repeat' split
    · exact ih s
    · exact ih s
    · exact .trans (s.takeCommit_steps g) (ih _)

theorem State.wrap_headSteps : HeadSteps s s.wrap := by
  unfold State.wrap
  dsimp only
  refine .after (State.slotsAt_steps _ _) ?_ ?_ ?_ ?_ <;> (simp; split <;> simp)

theorem State.abortOpen_steps (g : GroupId) : HeadSteps s (s.abortOpen g) := by
  unfold State.abortOpen
  dsimp only
  split
  · exact .refl
  · exact .after (State.retryHolds_steps _ _) (by simp) (by simp) (by simp) (by simp)

theorem State.expireHold_steps (p : Port) : HeadSteps s (s.expireHold p) := by
  unfold State.expireHold
  repeat' split
  · rename_i hh
    refine Relation.ReflTransGen.trans
      (HeadSteps.before (.single (State.dropHold_answerRefused_step hh (reason := .holdTimeout) (by decide))) ?_ ?_ ?_ ?_)
      (State.moveOn_steps _ _)
    all_goals simp
  all_goals exact .refl

/-! ## The memory port -/

theorem State.ackDrain_steps (g : GroupId) (i : PoolIndex) (status : Status) : HeadSteps s (s.ackDrain g i status) := by
  unfold State.ackDrain
  dsimp only
  refine .after (State.retryHolds_steps _ _) ?_ ?_ ?_ ?_ <;> (split <;> simp)

theorem State.grant_steps : HeadSteps s s.grant := by
  unfold State.grant
  repeat' split
  · rename_i p _
    unfold State.grantPort
    split
    · rename_i r cls hf
      refine .trans (.single (.send p r cls ⟨hf, fun _ => nofun, fun _ => rfl, ?_, ?_, ?_, ?_⟩ (fun q hq => ?_) ?_ ?_))
        (State.moveOn_steps _ _)
      all_goals simp [State.recordGrant, State.countPort_port, State.progressFirst_port]
      · cases r <;> rfl
      · cases r <;>
          simp [BusRequest.kind, PortCounts.withPass, PortCounts.settled, Progress.isUnsettled, Progress.isBehind,
            Progress.isHead] <;> ring
      · simp [hq]
    · exact .refl
  · exact .elsewhere (by simp) (by simp) (by simp) (by simp)
  · exact .refl
  · exact .refl

theorem State.hitFor_steps (p : Port) (r : BusRequest) (cls : Classification) (m : LaneSet) (d : Lanes) (e : Bool) :
    HeadSteps s (s.hitFor p r cls m d e) := .elsewhere (by simp) (by simp) (by simp) (by simp)

/-- The oldest request ON_M answered, with what is recorded of an ERROR. -/
theorem State.routeToPort_steps (p : Port) (status : Status) (memory : Lanes) :
    HeadSteps s (s.routeToPort p status memory) := by
  unfold State.routeToPort
  split
  · rename_i r cls hf
    have moved (a : Answer) (x : PortState) (hq : x.queue = setFirst Progress.isOnM (.answered a) (s.port p).queue)
        (hw : x.waiting = (s.port p).waiting) (hr : x.counts.requests = (s.port p).counts.requests)
        (hs : x.counts.settled = (s.port p).counts.settled) :
        PortMove Progress.isOnM ⟨r, .onM cls⟩ (.answered a) (s.port p) x :=
      ⟨hf, fun _ => nofun, fun h => by simp [Progress.isUnsettled, Progress.isBehind, Progress.isHead] at h, hq, hw, hr, by
        simpa [Progress.isUnsettled, Progress.isBehind, Progress.isHead] using hs⟩
    have answered (a : Answer) : HeadSteps s (s.progressFirst p Progress.isOnM (.answered a)) :=
      .single (.respond p r cls a (moved a _ (by simp [State.progressFirst_port]) (by simp [State.progressFirst_port])
        (by simp [State.progressFirst_port]) (by simp [State.progressFirst_port]))
        (fun q hq => by simp [State.progressFirst_port, hq]) (by simp) (by simp))
    have recorded (a : Answer) :
        HeadSteps s ((s.progressFirst p Progress.isOnM (.answered a)).downstreamError p r) :=
      .single (.respond p r cls a (moved a _
        (by simp [State.downstreamError, State.recordError_port, State.progressFirst_port])
        (by simp [State.downstreamError, State.recordError_port, State.progressFirst_port])
        (by simp [State.downstreamError, State.recordError_port, State.progressFirst_port, PortCounts.withError])
        (by simp [State.downstreamError, State.recordError_port, State.progressFirst_port, PortCounts.withError,
          PortCounts.settled]))
        (fun q hq => by simp [State.downstreamError, State.recordError_port, State.progressFirst_port, hq])
        (by simp) (by simp))
    cases r <;> cases status
    · exact .trans (answered _) (State.hitFor_steps ..)
    · exact .trans (recorded _) (State.hitFor_steps ..)
    · exact answered _
    · exact recorded _
  · exact .refl

theorem State.memoryResponse_steps (status : Status) (memory : Lanes) :
    HeadSteps s (s.memoryResponse status memory) := by
  unfold State.memoryResponse
  split
  · exact .refl
  · dsimp only
    split
    · exact .after (State.routeToPort_steps _ _ _ _) rfl rfl rfl rfl
    · exact .after (State.ackDrain_steps _ _ _ _) rfl rfl rfl rfl

/-! ## RESET_DATAPATH -/

theorem State.discardHeld_steps (p : Port) : HeadSteps s (s.discardHeld p) := by
  unfold State.discardHeld
  split
  · rename_i hh
    exact .single (State.dropHold_answerRefused_step hh (by decide))
  · rename_i hn
    refine .single (.orphan p ?_)
    unfold State.headHeld
    split
    · rename_i hh
      exact absurd hh (hn _ _)
    · rfl

theorem State.discardHolds_steps (ports : List Port) : ∀ s : State, HeadSteps s (State.discardHolds ports s) := by
  induction ports with
  | nil => exact fun s => .refl
  | cons p ports ih => exact fun s => .trans (s.discardHeld_steps p) (ih _)

theorem State.resetDatapath_headSteps : HeadSteps s s.resetDatapath := by
  unfold State.resetDatapath
  refine .trans ?_ (State.moveOnAll_steps _ _)
  refine .trans ?_ (State.discardHolds_steps _ _)
  refine HeadSteps.before (HeadSteps.after (.single (.mark (s := (s.withOp .bypass).discardEntries))) ?_ ?_ ?_ ?_) ?_ ?_ ?_ ?_
  all_goals simp

end

/-! ## Every effect -/

/-- The effects of the window commands, on one window's fields (R86, R88, R89). -/
inductive WindowEffect (s : State) : Instr → State → Prop
  | put {c : Instr} (w : WindowId) (base limit : Address) (ports : PortSet) (cls : WindowClass)
      (channel : Option ChannelId) (off : (s.window w).enabled = false) (hb : base.toNat % 4096 = 0)
      (hl : limit.toNat % 4096 = 0) (hle : base.toNat ≤ limit.toNat) (hp : ports ≠ 0) : WindowEffect s c (s.withWindow w
        { s.window w with base := base, limit := limit, ports := ports, cls := cls, channel := channel })
  | enable (b : Byte) (w : WindowId) (clear : s.conflictingWindow w = none) (named : s.groupMissing w = false) :
      WindowEffect s (.enableWindow b) (s.withWindow w { s.window w with enabled := true })
  | disable (b : Byte) (w : WindowId) :
      WindowEffect s (.disableWindow b) (s.withWindow w { s.window w with enabled := false })

/-- A window command leaves the count of writes in passage. -/
theorem WindowEffect.eq_withWindow {c : Instr} {s t : State} (h : WindowEffect s c t) :
    ∃ w x, t = s.withWindow w x ∧ x.passage = (s.window w).passage := by
  cases h with
  | put w | enable _ w | disable _ w => exact ⟨w, _, rfl, rfl⟩

/-- The effect of every row is a chain of steps at the ports, the windows' counts and the hold records, but for a request
presented, a response taken and the window commands. -/
theorem Effect.headSteps {c : Instr} {s t : State} (h : Effect s c t) :
    HeadSteps s t ∨ (∃ p r, c = .requestAccept p r ∧ t = s.presentRequest p r) ∨
      (∃ p, c = .responseTaken p ∧ t = s.takeResponse p) ∨ WindowEffect s c t := by
  cases h with
  | requestAccept p r => exact .inr (.inl ⟨p, r, rfl, rfl⟩)
  | responseTaken p => exact .inr (.inr (.inl ⟨p, rfl, rfl⟩))
  | putWindow _ _ _ _ _ _ _ _ _ w base limit ports cls channel off hb hl hle hp =>
    exact .inr (.inr (.inr (.put w base limit ports cls channel off hb hl hle hp)))
  | enableWindow b w clear named => exact .inr (.inr (.inr (.enable b w clear named)))
  | disableWindow b w => exact .inr (.inr (.inr (.disable b w)))
  | partialFrame n =>
    left; unfold State.discardFrame; split <;> exact .elsewhere rfl rfl rfl rfl
  | counterStep =>
    left; unfold State.counterStep
    split
    · exact .after (State.slotsAt_steps _ _) rfl rfl rfl rfl
    · exact .refl
  | naturalWrap =>
    left; unfold State.naturalWrap
    split
    · exact s.wrap_headSteps
    · exact .refl
  | syncInEdge =>
    left; unfold State.syncEdge
    dsimp only
    repeat' split
    · exact .after (State.wrap_headSteps _) (by simp) (by simp) (by simp) (by simp)
    · exact .after (State.wrap_headSteps _) rfl rfl rfl rfl
    · exact .refl
  | commitInEdge => exact .inl (State.slotsAt_steps _ _)
  | startTimebase => exact .inl (.after (State.slotsAt_steps _ _) rfl rfl rfl rfl)
  | holdLimitExpiry p => exact .inl (s.expireHold_steps p)
  | stagedWritePlacement p => exact .inl (s.placeHead_steps p)
  | grant => exact .inl s.grant_steps
  | memoryResponse status memory => exact .inl (s.memoryResponse_steps status memory)
  | commitNow _ groups => exact .inl (State.commitNow_steps groups s)
  | abortGroup _ g => exact .inl (s.abortOpen_steps g)
  | resetDatapath => exact .inl s.resetDatapath_headSteps
  | period | slotOffset =>
    left
    simp only [State.writePeriod, State.writeSlotOffset]
    split <;> exact .elsewhere (by simp) (by simp) (by simp) (by simp)
  | _ => exact .inl (.elsewhere (by simp) (by simp) (by simp) (by simp))

/-- Every change of the block, as the effect of a row. -/
theorem Change.headSteps {s t : State} (h : Change s t) :
    HeadSteps s t ∨ (∃ p r, t = s.presentRequest p r) ∨ (∃ p, t = s.takeResponse p) ∨ ∃ c, WindowEffect s c t := by
  obtain ⟨c, e⟩ | ⟨m, x, d, e, rfl⟩ := h.effect
  · rcases e.headSteps with h | ⟨p, r, -, h⟩ | ⟨p, -, h⟩ | h
    · exact .inl h
    · exact .inr (.inl ⟨p, r, h⟩)
    · exact .inr (.inr (.inl ⟨p, h⟩))
    · exact .inr (.inr (.inr ⟨c, h⟩))
  · exact .inl (.elsewhere rfl rfl rfl rfl)

end Sys2Proof.Machine

/-! PROOFS. The balance of the ports' counts (R112), and what a change does to a group (R5, R13, R47). -/

namespace Sys2Proof.Machine

/-! ## The balance of a port -/

@[simp] theorem QueuedRequest.markPassage_request (r : QueuedRequest) : r.markPassage.request = r.request := by
  unfold QueuedRequest.markPassage; split <;> rfl

/-- A mark leaves every test that does not look into a head. -/
theorem QueuedRequest.markPassage_test (r : QueuedRequest) {β : Type} (test : Progress → β)
    (h : ∀ cls x y, test (.head cls x) = test (.head cls y)) : test r.markPassage.progress = test r.progress := by
  unfold QueuedRequest.markPassage
  split
  · rename_i e; rw [e]; exact h _ _ _
  · rfl

theorem State.markPassages_port (s : State) (p : Port) :
    s.markPassages.port p = { s.port p with queue := (s.port p).queue.map QueuedRequest.markPassage } := by
  cases p <;> rfl

/-- What a step does to a port: it stays, one of its requests goes on, or its writes in passage are marked. -/
theorem HeadStep.port_cases {s t : State} (h : HeadStep s t) (q : Port) : t.port q = s.port q ∨
    (∃ test r new, PortMove test r new (s.port q) (t.port q)) ∨
    t.port q = { s.port q with queue := (s.port q).queue.map QueuedRequest.markPassage } := by
  have at_port (p : Port) (hp : ∃ test r new, PortMove test r new (s.port p) (t.port p))
      (ho : ∀ q, q ≠ p → t.port q = s.port q) : t.port q = s.port q ∨
      (∃ test r new, PortMove test r new (s.port q) (t.port q)) ∨
      t.port q = { s.port q with queue := (s.port q).queue.map QueuedRequest.markPassage } := by
    by_cases h : q = p
    · subst h; exact .inr (.inl hp)
    · exact .inl (ho q h)
  cases h with
  | elsewhere hA hB => exact .inl (State.port_of_ports hA hB q)
  | enter p r cls new _ hp ho => exact at_port p ⟨_, _, _, hp⟩ ho
  | answer p r cls place a hp ho => exact at_port p ⟨_, _, _, hp⟩ ho
  | hold h r cls b hp ho => exact at_port h.port ⟨_, _, _, hp⟩ ho
  | send p r cls hp ho => exact at_port p ⟨_, _, _, hp⟩ ho
  | respond p r cls a hp ho => exact at_port p ⟨_, _, _, hp⟩ ho
  | mark => exact .inr (.inr (s.markPassages_port q))
  | orphan p => exact .inl (s.dropHold_port p q)

theorem PortState.unsettled_mark (x : PortState) :
    PortState.unsettled { x with queue := x.queue.map QueuedRequest.markPassage } = x.unsettled := by
  unfold PortState.unsettled
  rw [List.filter_map, List.length_map]
  exact congrArg (fun f => (x.queue.filter f).length) (funext fun r =>
    r.markPassage_test Progress.isUnsettled fun _ _ _ => rfl)

theorem HeadSteps.balanced {s t : State} (h : HeadSteps s t) (q : Port) (hs : (s.port q).balanced) :
    (t.port q).balanced := by
  induction h with
  | refl => exact hs
  | tail _ hc ih =>
    rcases hc.port_cases q with e | ⟨test, r, new, hp⟩ | e
    · rw [e]; exact ih
    · exact hp.balanced ih
    · rw [e, PortState.balanced_iff, PortState.unsettled_mark]; exact ih

/-- An accepted request is counted and unsettled (R101, R112). -/
theorem PortState.balanced_append {x : PortState} (hx : x.balanced) (r : BusRequest) (w : List BusRequest) :
    PortState.balanced { x with
      queue := x.queue ++ [⟨r, .behind⟩], waiting := w, counts := { x.counts with requests := x.counts.requests + 1 } } := by
  rw [PortState.balanced_iff] at hx ⊢
  have hu : PortState.unsettled { x with
      queue := x.queue ++ [⟨r, .behind⟩], waiting := w, counts := { x.counts with requests := x.counts.requests + 1 } } =
      x.unsettled + 1 := by
    simp [PortState.unsettled, Progress.isUnsettled, Progress.isBehind]
  rw [hu, BitVec.ofNat_add]
  simp only [hx, PortCounts.settled, BitVec.ofNat_eq_ofNat]
  ring

/-- An answered request is settled, so that taking it leaves the balance. -/
theorem PortState.balanced_tail {x : PortState} (hx : x.balanced) {r : BusRequest} {a : Answer} {rest : List QueuedRequest}
    (h : x.queue = ⟨r, .answered a⟩ :: rest) : PortState.balanced { x with queue := x.queue.tail } := by
  rw [PortState.balanced_iff] at hx ⊢
  rw [hx]
  unfold PortState.unsettled
  rw [h]
  simp [Progress.isUnsettled, Progress.isBehind, Progress.isHead]

theorem State.withPort_balanced {s : State} {p : Port} {x : PortState} (q : Port) (hx : (s.port p).balanced → x.balanced)
    (hs : (s.port q).balanced) : ((s.withPort p x).port q).balanced := by
  by_cases h : p = q
  · subst h; rw [State.port_withPort_same]; exact hx hs
  · rw [State.port_withPort_ne _ h]; exact hs

theorem State.presentRequest_balanced {s : State} (p : Port) (r : BusRequest) (q : Port) (hs : (s.port q).balanced) :
    ((s.presentRequest p r).port q).balanced := by
  unfold State.presentRequest
  split
  · exact (State.moveOn_steps _ p).balanced q (State.withPort_balanced q (fun h => PortState.balanced_append h r _) hs)
  · exact State.withPort_balanced q id hs

/-- The response a port delivers is the answer of its oldest request. -/
theorem State.delivered_some {s : State} {p : Port} {x : Tag × Answer} (h : s.delivered p = some x) :
    ∃ r rest, (s.port p).queue = ⟨r, .answered x.2⟩ :: rest := by
  unfold State.delivered at h
  split at h
  · rename_i r a rest hq
    cases h
    exact ⟨r, rest, hq⟩
  · cases h

theorem State.acceptWaiting_balanced {s : State} (p q : Port) (hs : (s.port q).balanced) :
    ((s.acceptWaiting p).port q).balanced := by
  unfold State.acceptWaiting
  repeat' split
  · exact hs
  · refine (State.moveOn_steps _ p).balanced q ?_
    exact State.withPort_balanced q (fun h => PortState.balanced_append h _ _) (State.withPort_balanced q id hs)
  · exact hs

theorem State.takeResponse_balanced {s : State} (p q : Port) (hs : (s.port q).balanced) :
    ((s.takeResponse p).port q).balanced := by
  unfold State.takeResponse
  split
  · rename_i h
    obtain ⟨r, rest, hq⟩ := State.delivered_some h
    exact State.acceptWaiting_balanced p q (State.withPort_balanced q (fun hb => PortState.balanced_tail hb hq) hs)
  · exact hs

@[simp] theorem State.withWindow_port (s : State) (w : WindowId) (x : Window) (q : Port) :
    (s.withWindow w x).port q = s.port q := State.port_of_ports rfl rfl q

theorem Change.keeps_portBalance {s t : State} (q : Port) (hs : (s.port q).balanced) (h : Change s t) :
    (t.port q).balanced := by
  rcases h.headSteps with h | ⟨p, r, rfl⟩ | ⟨p, rfl⟩ | ⟨c, h⟩
  · exact h.balanced q hs
  · exact s.presentRequest_balanced p r q hs
  · exact s.takeResponse_balanced p q hs
  · obtain ⟨w, x, rfl, -⟩ := h.eq_withWindow
    rw [State.withWindow_port]
    exact hs

end Sys2Proof.Machine

/-! PROOFS. The order of the answers (R101, R107): every step at the ports lets a queue only grow. -/

namespace Sys2Proof.Machine

/-! ## A queue that grows -/

/-- A request keeps its place: its own fields and its answer, if it has one. -/
def QueuedRequest.Keeps (x y : QueuedRequest) : Prop :=
  y.request = x.request ∧ ∀ a, x.progress = .answered a → y.progress = .answered a

theorem QueuedRequest.Keeps.refl (x : QueuedRequest) : x.Keeps x := ⟨rfl, fun _ => id⟩

theorem QueuedRequest.Keeps.trans {x y z : QueuedRequest} (h : x.Keeps y) (k : y.Keeps z) : x.Keeps z :=
  ⟨k.1.trans h.1, fun a ha => k.2 a (h.2 a ha)⟩

theorem queueGrows_nil (b : List QueuedRequest) : queueGrows [] b := ⟨[], b, rfl, .nil⟩

theorem queueGrows_cons {x : QueuedRequest} {a b : List QueuedRequest} :
    queueGrows (x :: a) b ↔ ∃ y rest, b = y :: rest ∧ x.Keeps y ∧ queueGrows a rest := by
  constructor
  · rintro ⟨old, new, rfl, h⟩
    obtain ⟨y, rest, hxy, hrest, rfl⟩ := List.forall₂_cons_left_iff.mp h
    exact ⟨y, rest ++ new, rfl, hxy, rest, new, rfl, hrest⟩
  · rintro ⟨y, _, rfl, hxy, old, new, rfl, h⟩
    exact ⟨y :: old, new, rfl, .cons hxy h⟩

theorem queueGrows.append {a b : List QueuedRequest} (h : queueGrows a b) (new : List QueuedRequest) :
    queueGrows a (b ++ new) := by
  obtain ⟨old, more, rfl, h⟩ := h
  exact ⟨old, more ++ new, List.append_assoc _ _ _, h⟩

/-- A queue whose requests all keep their places. -/
theorem queueGrows_map {f : QueuedRequest → QueuedRequest} (hf : ∀ x : QueuedRequest, x.Keeps (f x)) (a : List QueuedRequest) :
    queueGrows a (a.map f) := by
  induction a with
  | nil => exact queueGrows_nil _
  | cons x a ih => exact queueGrows_cons.mpr ⟨f x, a.map f, rfl, hf x, ih⟩

theorem queueGrows.refl (a : List QueuedRequest) : queueGrows a a := by
  simpa using queueGrows_map (f := id) QueuedRequest.Keeps.refl a

theorem queueGrows.trans {a b c : List QueuedRequest} (h : queueGrows a b) (k : queueGrows b c) : queueGrows a c := by
  induction a generalizing b c with
  | nil => exact queueGrows_nil c
  | cons x a ih =>
    obtain ⟨y, rest, rfl, hxy, h⟩ := queueGrows_cons.mp h
    obtain ⟨z, rest', rfl, hyz, k⟩ := queueGrows_cons.mp k
    exact queueGrows_cons.mpr ⟨z, rest', rfl, hxy.trans hyz, ih h k⟩

/-- A request of a queue goes on that was not yet answered. -/
theorem queueGrows_middle (pre post : List QueuedRequest) {x y : QueuedRequest} (h : x.Keeps y) :
    queueGrows (pre ++ x :: post) (pre ++ y :: post) := by
  induction pre with
  | nil => exact queueGrows_cons.mpr ⟨y, post, rfl, h, .refl post⟩
  | cons z pre ih => exact queueGrows_cons.mpr ⟨z, pre ++ y :: post, rfl, .refl z, ih⟩

/-! ## The steps -/

theorem PortMove.grows {test : Progress → Bool} {r : QueuedRequest} {new : Progress} {a b : PortState}
    (h : PortMove test r new a b) : queueGrows a.queue b.queue := by
  obtain ⟨pre, post, hq, hq', -⟩ := h.split
  rw [hq, hq']
  exact queueGrows_middle pre post ⟨rfl, fun x hx => absurd hx (h.unanswered x)⟩

/-- A mark leaves an answer. -/
theorem QueuedRequest.keeps_markPassage (r : QueuedRequest) : r.Keeps r.markPassage := by
  refine ⟨r.markPassage_request, fun a ha => ?_⟩
  unfold QueuedRequest.markPassage
  rw [ha]
  exact ha

theorem HeadSteps.grows {s t : State} (h : HeadSteps s t) (p : Port) : queueGrows (s.port p).queue (t.port p).queue := by
  induction h with
  | refl => exact .refl _
  | tail _ step ih =>
    refine ih.trans ?_
    rcases step.port_cases p with e | ⟨test, r, new, hp⟩ | e
    · rw [e]; exact .refl _
    · exact hp.grows
    · rw [e]; exact queueGrows_map QueuedRequest.keeps_markPassage _

theorem State.acceptRequest_grows (s : State) (q : Port) (r : BusRequest) (p : Port) :
    queueGrows (s.port p).queue ((s.acceptRequest q r).port p).queue := by
  unfold State.acceptRequest
  refine .trans ?_ ((State.moveOn_steps _ q).grows p)
  by_cases e : q = p
  · subst e
    rw [State.port_withPort_same]
    exact (queueGrows.refl _).append _
  · rw [State.port_withPort_ne _ e]
    exact .refl _

theorem State.presentRequest_grows (s : State) (q : Port) (r : BusRequest) (p : Port) :
    queueGrows (s.port p).queue ((s.presentRequest q r).port p).queue := by
  unfold State.presentRequest
  split
  · exact s.acceptRequest_grows q r p
  · by_cases e : q = p
    · subst e; rw [State.port_withPort_same]; exact .refl _
    · rw [State.port_withPort_ne _ e]; exact .refl _

theorem State.acceptWaiting_grows (s : State) (q p : Port) :
    queueGrows (s.port p).queue ((s.acceptWaiting q).port p).queue := by
  unfold State.acceptWaiting
  repeat' split
  · exact .refl _
  · refine .trans ?_ (State.acceptRequest_grows _ q _ p)
    by_cases e : q = p
    · subst e; rw [State.port_withPort_same]; exact .refl _
    · rw [State.port_withPort_ne _ e]; exact .refl _
  · exact .refl _

/-- A response taken at one port leaves the other's queue to grow. -/
theorem State.takeResponse_grows_other (s : State) {q p : Port} (e : q ≠ p) :
    queueGrows (s.port p).queue ((s.takeResponse q).port p).queue := by
  unfold State.takeResponse
  split
  · have grown := State.acceptWaiting_grows (s.withPort q { s.port q with queue := (s.port q).queue.tail }) q p
    rwa [State.port_withPort_ne _ e] at grown
  · exact .refl _

/-- A response taken removes the oldest request, once answered. -/
theorem State.takeResponse_grows (s : State) (p : Port) :
    queueGrows (s.port p).queue ((s.takeResponse p).port p).queue ∨
      ∃ r a rest, (s.port p).queue = ⟨r, .answered a⟩ :: rest ∧ queueGrows rest ((s.takeResponse p).port p).queue := by
  unfold State.takeResponse
  split
  · rename_i h
    obtain ⟨r, rest, hq⟩ := State.delivered_some h
    have grown := State.acceptWaiting_grows (s.withPort p { s.port p with queue := (s.port p).queue.tail }) p p
    rw [State.port_withPort_same] at grown
    refine .inr ⟨r, _, rest, hq, ?_⟩
    rwa [show (s.port p).queue.tail = rest by rw [hq]; rfl] at grown ⊢
  · exact .inl (.refl _)

/-- What the effect of a row does to the requests of a port. -/
theorem Effect.grows {c : Instr} {s t : State} (h : Effect s c t) (p : Port) :
    (c ≠ .responseTaken p → queueGrows (s.port p).queue (t.port p).queue) ∧
    (c = .responseTaken p → queueGrows (s.port p).queue (t.port p).queue ∨
      ∃ r a rest, (s.port p).queue = ⟨r, .answered a⟩ :: rest ∧ queueGrows rest (t.port p).queue) := by
  rcases h.headSteps with h | ⟨q, r, -, rfl⟩ | ⟨q, rfl, rfl⟩ | h
  · exact ⟨fun _ => h.grows p, fun _ => .inl (h.grows p)⟩
  · exact ⟨fun _ => s.presentRequest_grows q r p, fun _ => .inl (s.presentRequest_grows q r p)⟩
  · refine ⟨fun ne => s.takeResponse_grows_other fun e => ne (by rw [e]), fun e => ?_⟩
    injection e with e
    subst e
    exact s.takeResponse_grows q
  · obtain ⟨w, x, rfl, -⟩ := h.eq_withWindow
    rw [State.withWindow_port]
    exact ⟨fun _ => .refl _, fun _ => .inl (.refl _)⟩

/-- Settles O29: by the outcome of the command, an effect being a chain of steps at the ports. -/
theorem answersStayInIssueOrder : Obligations.AnswersStayInIssueOrder := by
  intro c s t p h h1 h2
  have still : ∀ {u : State}, u.port p = s.port p →
      (c ≠ .responseTaken p → queueGrows (s.port p).queue (u.port p).queue) ∧
      (c = .responseTaken p → queueGrows (s.port p).queue (u.port p).queue ∨
        ∃ r a rest, (s.port p).queue = ⟨r, .answered a⟩ :: rest ∧ queueGrows rest (u.port p).queue) := fun e => by
    rw [e]
    exact ⟨fun _ => .refl _, fun _ => .inl (.refl _)⟩
  cases exec_outcome h h1 h2 with
  | deaf => exact still rfl
  | unheard | refused | shown | clash | occupied => exact still (State.port_of_ports rfl rfl p)
  | row _ e => exact e.grows p
  | @done u e data =>
    have grown := e.grows p
    rwa [← State.port_of_ports (s := u) (t := u.reply .accepted data) rfl rfl p] at grown

end Sys2Proof.Machine

/-! PROOFS. What every row leaves alone of the groups' settings, the windows' fields and the operating state (R28 to R31,
R84, R86, R93). -/

namespace Sys2Proof.Machine

/-! ## The groups' settings -/

theorem Group.sameSettings.refl (g : Group) : g.sameSettings g :=
  ⟨rfl, rfl, rfl, rfl, rfl, rfl, rfl, rfl, rfl, rfl, rfl⟩

theorem Group.sameSettings.trans {a b c : Group} (h : a.sameSettings b) (k : b.sameSettings c) : a.sameSettings c := by
  obtain ⟨h1, h2, h3, h4, h5, h6, h7, h8, h9, h10, h11⟩ := h
  obtain ⟨k1, k2, k3, k4, k5, k6, k7, k8, k9, k10, k11⟩ := k
  exact ⟨k1.trans h1, k2.trans h2, k3.trans h3, k4.trans h4, k5.trans h5, k6.trans h6, k7.trans h7, k8.trans h8,
    k9.trans h9, k10.trans h10, k11.trans h11⟩

theorem Group.Collects.settings {a b : Group} (h : a.Collects b) : a.sameSettings b := by
  rw [h.same]
  exact .refl a

theorem Group.slotOutcome.settings {reached : Bool} {stamp : Stamp} {a b : Group} (h : a.slotOutcome reached stamp b) :
    a.sameSettings b := by
  unfold Group.slotOutcome at h
  split at h
  · split at h
    · obtain ⟨-, -, -, -, -, -, same⟩ := h
      exact same
    · rw [h]
      exact .refl a
  · rw [h]
    exact .refl a

/-- Every group keeps its settings. -/
def State.KeepsSettings (s t : State) : Prop := ∀ g, (s.group g).sameSettings (t.group g)

theorem State.KeepsSettings.of_groups {s t : State} (h : t.groups = s.groups) : s.KeepsSettings t := fun g => by
  rw [State.group_eq h]
  exact .refl _

theorem State.KeepsSettings.refl (s : State) : s.KeepsSettings s := .of_groups rfl

theorem State.KeepsSettings.trans {s t u : State} (h : s.KeepsSettings t) (k : t.KeepsSettings u) : s.KeepsSettings u :=
  fun g => (h g).trans (k g)

theorem State.KeepsSettings.before {s t u : State} (h : s.KeepsSettings t) (e : u.groups = t.groups) : s.KeepsSettings u :=
  h.trans (.of_groups e)

/-- One group replaced by one of the same settings. -/
theorem State.KeepsSettings.of_one {s t : State} {g : GroupId} {x : Group}
    (hg : ∀ k, t.group k = if k = g then x else s.group k) (h : (s.group g).sameSettings x) : s.KeepsSettings t := fun k => by
  rw [hg k]
  split
  · rename_i e; subst e; exact h
  · exact .refl _

section
variable (s : State)

theorem State.countGroup_settings (g : GroupId) (f : GroupCounts → GroupCounts) : s.KeepsSettings (s.countGroup g f) :=
  fun k => by
    rw [State.countGroup_group]
    split <;> exact .refl _

theorem State.place_settings (p : Port) (g : GroupId) (w : WordIndex) (m : LaneSet) (d : Lanes) :
    s.KeepsSettings (s.place p g w m d).1 := fun k => (s.place_group p g k w m d).1.settings

theorem State.retryHolds_settings (concerned : Hold → Bool) : s.KeepsSettings (s.retryHolds concerned) :=
  fun k => (s.retryHolds_group concerned k).1.settings

theorem State.slotAt_settings (g : GroupId) : s.KeepsSettings (s.slotAt g) := fun k => (s.slotAt_group g k).settings

theorem State.takeCommit_settings (g : GroupId) : s.KeepsSettings (s.takeCommit g) := by
  rw [State.takeCommit_eq]
  have committed : s.KeepsSettings (s.committed g) :=
    .of_one (State.committed_group s g) ⟨rfl, rfl, rfl, rfl, rfl, rfl, rfl, rfl, rfl, rfl, rfl⟩
  exact committed.trans (State.retryHolds_settings _ _)

theorem State.slotsAt_settings (groups : List GroupId) : ∀ s : State, s.KeepsSettings (State.slotsAt groups s) := by
  induction groups with
  | nil => exact State.KeepsSettings.refl
  | cons g groups ih => exact fun s => (s.slotAt_settings g).trans (ih _)

theorem State.commitNow_settings (groups : List GroupId) : ∀ s : State, s.KeepsSettings (State.commitNow groups s).1 := by
  induction groups with
  | nil => exact State.KeepsSettings.refl
  | cons g groups ih =>
    intro s
    unfold State.commitNow
    repeat' split
    · exact ih s
    · exact ih s
    · exact (s.takeCommit_settings g).trans (ih _)

theorem State.abortOpen_settings (g : GroupId) : s.KeepsSettings (s.abortOpen g) := by
  by_cases h : (s.group g).openList = []
  · rw [State.abortOpen_of_empty h]
    exact .refl s
  · rw [State.abortOpen_eq h]
    have aborted : s.KeepsSettings (s.aborted g) :=
      .of_one (State.aborted_group s g) ⟨rfl, rfl, rfl, rfl, rfl, rfl, rfl, rfl, rfl, rfl, rfl⟩
    exact aborted.trans (State.retryHolds_settings _ _)

theorem State.expireHold_settings (p : Port) : s.KeepsSettings (s.expireHold p) := by
  unfold State.expireHold
  repeat' split
  · rename_i h _ _ _ r cls _
    have counted := ((s.dropHold p).answerRefused p cls r .holdTimeout).countGroup_settings h.group fun c =>
      { c with holdTimeouts := c.holdTimeouts + 1 }
    have before : s.KeepsSettings ((s.dropHold p).answerRefused p cls r .holdTimeout) := .of_groups (by simp)
    exact (before.trans counted).before (by simp)
  all_goals exact .refl s

theorem State.expireBudget_settings (g : GroupId) : s.KeepsSettings (s.expireBudget g) := by
  unfold State.expireBudget
  split
  · generalize s.drain.queue.map _ = queue
    exact ((s.withDrain { s.drain with queue := queue }).countGroup_settings g fun c =>
      { c with lateDrains := c.lateDrains + 1 }).before (by simp)
  · exact .refl s

theorem State.placeHead_settings (p : Port) : s.KeepsSettings (s.placeHead p) := by
  unfold State.placeHead
  dsimp only
  split
  · rename_i w m d _ _ _ _
    repeat' split
    · exact .refl s
    · exact .of_groups (by simp)
    · rename_i g _ _ _ _ _
      exact (s.place_settings p g w m d).before (by simp)
    · rename_i g _ _ _ _ _
      exact (s.place_settings p g w m d).before (by simp)
    · rename_i g _ _ _ _ _
      exact (s.place_settings p g w m d).before (by simp)
    · exact .of_groups (by simp)
  · exact .refl s

theorem State.settleEntry_settings (g : GroupId) (i : PoolIndex) (status : Status) :
    s.KeepsSettings (s.settleEntry g i status) := by
  by_cases h : i ∈ (s.group g).drainList
  · exact .of_one (State.settleEntry_group status h) ⟨rfl, rfl, rfl, rfl, rfl, rfl, rfl, rfl, rfl, rfl, rfl⟩
  · unfold State.settleEntry
    rw [if_neg h]
    exact .refl s

theorem State.memoryResponse_settings (status : Status) (memory : Lanes) :
    s.KeepsSettings (s.memoryResponse status memory) := by
  unfold State.memoryResponse
  split
  · exact .refl s
  · dsimp only
    split
    · exact .of_groups (by simp)
    · rename_i items _ _ g i _
      generalize hu : s.withArb { s.arb with outstanding := items } = u
      have settled := (u.settleEntry_settings g i status).before (u.acknowledged_frame g i status).2.1
      have all := settled.trans (State.retryHolds_settings _ fun _ => true)
      subst hu
      exact all

theorem State.discardEntries_group (g : GroupId) : s.discardEntries.group g = s.discardGroup (s.group g) := by
  unfold State.discardEntries
  rw [State.withPool_group]
  simp [State.group]

theorem State.resetDatapath_settings : s.KeepsSettings s.resetDatapath := by
  have discarded : s.KeepsSettings (s.withOp .bypass).discardEntries := fun g => by
    rw [State.discardEntries_group]
    exact ⟨rfl, rfl, rfl, rfl, rfl, rfl, rfl, rfl, rfl, rfl, rfl⟩
  exact discarded.before (by simp [State.resetDatapath, State.resetDrain, State.resetCapture])

end

/-! ## The windows' fields -/

/-- Every window keeps its fields; its count of writes in passage may change. -/
def State.KeepsWindows (s t : State) : Prop := ∀ w, ∃ n, t.window w = { s.window w with passage := n }

theorem State.KeepsWindows.of_windows {s t : State} (h : t.windows = s.windows) : s.KeepsWindows t :=
  fun w => ⟨(s.window w).passage, by simp [State.window, h]⟩

theorem State.KeepsWindows.trans {s t u : State} (h : s.KeepsWindows t) (k : t.KeepsWindows u) : s.KeepsWindows u :=
  fun w => by
    obtain ⟨n, hn⟩ := h w
    obtain ⟨m, hm⟩ := k w
    exact ⟨m, by rw [hm, hn]⟩

theorem State.KeepsWindows.of_passage {s t : State} {o : Option WindowId} {f : Nat → Nat}
    (h : t.windows = (s.passage o f).windows) : s.KeepsWindows t := fun w => by
  have eq : t.window w = (s.passage o f).window w := by simp [State.window, h]
  rw [eq, State.passage_window]
  split
  · exact ⟨_, rfl⟩
  · exact ⟨_, rfl⟩

theorem HeadSteps.windows {s t : State} (h : HeadSteps s t) : s.KeepsWindows t := by
  induction h with
  | refl => exact .of_windows rfl
  | tail _ step ih =>
    refine ih.trans ?_
    cases step with
    | elsewhere _ _ hw => exact .of_windows hw
    | enter p r cls new _ _ _ _ hw =>
      rcases hw with ⟨-, hw⟩ | ⟨-, hw⟩
      · exact .of_windows hw
      · exact .of_passage hw
    | answer p r cls place a _ _ hw => exact .of_passage hw
    | hold _ _ _ _ _ _ hw => exact .of_windows hw
    | send _ _ _ _ _ hw => exact .of_windows hw
    | respond _ _ _ _ _ _ hw => exact .of_windows hw
    | mark => exact .of_windows rfl
    | orphan p => exact .of_windows rfl

theorem State.acceptRequest_windows (s : State) (p : Port) (r : BusRequest) : s.KeepsWindows (s.acceptRequest p r) :=
  .trans (.of_windows (by simp)) (State.moveOn_steps _ p).windows

theorem State.presentRequest_windows (s : State) (p : Port) (r : BusRequest) : s.KeepsWindows (s.presentRequest p r) := by
  unfold State.presentRequest
  split
  · exact s.acceptRequest_windows p r
  · exact .of_windows (by simp)

theorem State.takeResponse_windows (s : State) (p : Port) : s.KeepsWindows (s.takeResponse p) := by
  unfold State.takeResponse State.acceptWaiting
  repeat' split
  · exact .of_windows (by simp)
  · exact .trans (.of_windows (by simp)) (State.acceptRequest_windows _ p _)
  · exact .of_windows (by simp)
  · exact .of_windows rfl

/-- What the effect of a row does to the windows. -/
theorem Effect.windows {c : Instr} {s t : State} (h : Effect s c t) : s.KeepsWindows t ∨ WindowEffect s c t := by
  rcases h.headSteps with h | ⟨p, r, -, rfl⟩ | ⟨p, -, rfl⟩ | h
  · exact .inl h.windows
  · exact .inl (s.presentRequest_windows p r)
  · exact .inl (s.takeResponse_windows p)
  · exact .inr h

/-! ## The operating state -/

/-- The transitions of the operating state (R93). -/
theorem Effect.op {c : Instr} {s t : State} (h : Effect s c t) : t.op = s.op ∨
    (s.op = .init ∧ t.op = .bypass ∧ c = .initComplete) ∨ (s.op ≠ .init ∧ t.op = .active ∧ c = .enableBridge) ∨
    (s.op ≠ .init ∧ t.op = .bypass ∧ (c = .disableBridge ∨ c = .resetDatapath)) := by
  cases h with
  | initComplete =>
    unfold State.initComplete
    split
    · rename_i k; exact .inr (.inl ⟨k.1, rfl, rfl⟩)
    · exact .inl rfl
  | enableBridge h => exact .inr (.inr (.inl ⟨h, rfl, rfl⟩))
  | disableBridge h => exact .inr (.inr (.inr ⟨h, rfl, .inl rfl⟩))
  | resetDatapath h =>
    exact .inr (.inr (.inr ⟨h, by simp [State.resetDatapath, State.resetDrain, State.resetCapture], .inr rfl⟩))
  | partialFrame | counterStep | naturalWrap | syncInEdge | period | slotOffset =>
    left
    simp only [State.discardFrame, State.counterStep, State.naturalWrap, State.syncEdge, State.writePeriod,
      State.writeSlotOffset]
    repeat' split
    all_goals simp [State.slotInstant]
  | _ => exact .inl (by simp)

/-! ## The values in force -/

/-- Of a RUNNING timebase the values in force stay but at a wrap (R31, R125, R126). -/
theorem Effect.timing {c : Instr} {s t : State} (h : Effect s c t) (run : s.tb.running = true) (h1 : c ≠ .naturalWrap)
    (h2 : c ≠ .syncInEdge) : t.tb.period = s.tb.period ∧ t.tb.prescale = s.tb.prescale := by
  cases h with
  | naturalWrap => exact absurd rfl h1
  | syncInEdge => exact absurd rfl h2
  | timebasePrescale => simp [Timebase.writePrescale, run]
  | period => simp [State.writePeriod, run]
  | slotOffset => simp [State.writeSlotOffset, run]
  | startTimebase => simp [State.startTimebase, State.slotInstant]
  | counterStep =>
    unfold State.counterStep
    split <;> simp [State.slotInstant]
  | partialFrame | initComplete =>
    simp only [State.discardFrame, State.initComplete]
    split <;> simp
  | usClockAdvance => exact ⟨rfl, rfl⟩
  | _ => simp

/-! ## The groups' fields one by one -/

theorem State.group_withGroup (s : State) (g h : GroupId) (x : Group) :
    (s.withGroup g x).group h = if h = g then x else s.group h := by
  by_cases e : h = g
  · subst e; simp
  · rw [if_neg e, State.group_withGroup_ne _ (Ne.symm e)]

/-- A field of every group stays when one group is replaced that has it as before. -/
theorem State.withGroup_field {α : Type} (f : Group → α) {s : State} {g : GroupId} {x : Group} (h : f x = f (s.group g))
    (k : GroupId) : f ((s.withGroup g x).group k) = f (s.group k) := by
  rw [State.group_withGroup]
  split
  · rename_i e; subst e; exact h
  · rfl

theorem State.wrap_enabled (s : State) (g : GroupId) : (s.wrap.group g).enabled = (s.group g).enabled := by
  rw [State.wrap_eq]
  refine ((State.slotsAt_settings _ s.wrapApplied) g).1.trans ?_
  rw [State.wrapApplied_group]
  rfl

theorem State.evaluateSlotRange_settings (s : State) (g : GroupId) :
    (s.evaluateSlotRange.group g).enabled = (s.group g).enabled := by
  rw [State.evaluateSlotRange_group]
  rfl

/-- A group is turned on or off by its setting alone, and off only while no enabled window names it (R28). -/
theorem Effect.enabled {c : Instr} {s t : State} (h : Effect s c t) :
    (∀ g, (t.group g).enabled = (s.group g).enabled) ∨
    (∃ g, t = s.withGroup g { s.group g with enabled := true }) ∨
    ∃ g, s.windows.any (·.names g) = false ∧ t = s.withGroup g { s.group g with enabled := false } := by
  cases h with
  | groupOn _ _ g => exact .inr (.inl ⟨g, rfl⟩)
  | groupOff _ _ g h => exact .inr (.inr ⟨g, h, rfl⟩)
  | triggerSource | mode | fullPolicy | entryLimit | holdLimit | drainBudget | logCommits =>
    exact .inl (State.withGroup_field Group.enabled rfl)
  | naturalWrap =>
    left; unfold State.naturalWrap
    split
    · exact s.wrap_enabled
    · exact fun _ => rfl
  | syncInEdge =>
    left; unfold State.syncEdge
    dsimp only
    repeat' split
    · exact fun g => (State.wrap_enabled _ g).trans (by simp)
    · exact fun g => State.wrap_enabled _ g
    · exact fun _ => rfl
  | slotOffset =>
    left; unfold State.writeSlotOffset
    split
    · exact State.withGroup_field Group.enabled rfl
    · exact fun g => (State.evaluateSlotRange_settings _ g).trans (State.withGroup_field Group.enabled (by rfl) g)
  | period =>
    left; unfold State.writePeriod
    split
    · exact fun _ => rfl
    · exact fun g => State.evaluateSlotRange_settings _ g
  | counterStep =>
    left; unfold State.counterStep
    split
    · exact fun g => (State.slotsAt_settings _ _ g).1
    · exact fun _ => rfl
  | commitInEdge => exact .inl fun g => (State.slotsAt_settings _ s g).1
  | startTimebase => exact .inl fun g => (State.slotsAt_settings _ _ g).1
  | holdLimitExpiry p => exact .inl fun g => (s.expireHold_settings p g).1
  | drainBudgetExpiry k => exact .inl fun g => (s.expireBudget_settings k g).1
  | stagedWritePlacement p => exact .inl fun g => (s.placeHead_settings p g).1
  | memoryResponse status memory => exact .inl fun g => (s.memoryResponse_settings status memory g).1
  | commitNow _ groups => exact .inl fun g => (State.commitNow_settings groups s g).1
  | abortGroup _ k => exact .inl fun g => (s.abortOpen_settings k g).1
  | resetDatapath => exact .inl fun g => (s.resetDatapath_settings g).1
  | partialFrame | initComplete =>
    left
    simp only [State.discardFrame, State.initComplete]
    split <;> exact fun _ => rfl
  | _ => exact .inl fun g => (State.KeepsSettings.of_groups (by simp) g).1

/-- Of a RUNNING timebase the slot offsets in force stay but at a wrap (R31). -/
theorem Effect.offsets {c : Instr} {s t : State} (h : Effect s c t) (run : s.tb.running = true) (h1 : c ≠ .naturalWrap)
    (h2 : c ≠ .syncInEdge) (g : GroupId) : (t.group g).slotOffset = (s.group g).slotOffset := by
  cases h with
  | naturalWrap => exact absurd rfl h1
  | syncInEdge => exact absurd rfl h2
  | groupOn | groupOff | triggerSource | mode | fullPolicy | entryLimit | holdLimit | drainBudget | logCommits =>
    exact State.withGroup_field Group.slotOffset (by rfl) g
  | slotOffset =>
    unfold State.writeSlotOffset
    rw [if_pos run]
    exact State.withGroup_field Group.slotOffset (by rfl) g
  | period =>
    unfold State.writePeriod
    rw [if_pos run]
    rfl
  | counterStep =>
    unfold State.counterStep
    split
    · exact (State.slotsAt_settings _ _ g).2.2.1
    · rfl
  | commitInEdge => exact (State.slotsAt_settings _ s g).2.2.1
  | startTimebase h => exact absurd run (by simp [h])
  | holdLimitExpiry p => exact (s.expireHold_settings p g).2.2.1
  | drainBudgetExpiry k => exact (s.expireBudget_settings k g).2.2.1
  | stagedWritePlacement p => exact (s.placeHead_settings p g).2.2.1
  | memoryResponse status memory => exact (s.memoryResponse_settings status memory g).2.2.1
  | commitNow _ groups => exact (State.commitNow_settings groups s g).2.2.1
  | abortGroup _ k => exact (s.abortOpen_settings k g).2.2.1
  | resetDatapath => exact (s.resetDatapath_settings g).2.2.1
  | partialFrame | initComplete =>
    simp only [State.discardFrame, State.initComplete]
    split <;> rfl
  | _ => exact (State.KeepsSettings.of_groups (by simp) g).2.2.1

/-- A window turned on or off keeps its other fields. -/
theorem State.withWindow_enabled (s : State) (v w : WindowId) (b : Bool) :
    let x := (s.withWindow v { s.window v with enabled := b }).window w
    x.base = (s.window w).base ∧ x.limit = (s.window w).limit ∧ x.ports = (s.window w).ports ∧
      x.cls = (s.window w).cls ∧ x.channel = (s.window w).channel := by
  dsimp only
  by_cases e : v = w
  · subst e
    rw [State.window_withWindow_same]
    exact ⟨rfl, rfl, rfl, rfl, rfl⟩
  · rw [State.window_withWindow_ne _ e]
    exact ⟨rfl, rfl, rfl, rfl, rfl⟩

/-- Settles O55: by the outcome of the command, an effect changing only what its row may change. -/
theorem modesAndWindowsChangeOnlyAsTheManualSays : Obligations.ModesAndWindowsChangeOnlyAsTheManualSays := by
  refine ⟨fun c s t h h1 h2 changed => ?_, fun c s t h run n1 n2 h1 h2 => ?_, fun c s t w h h1 h2 => ?_⟩
  · have effect : ∀ {u : State}, u.op ≠ s.op → Effect s c u →
        (s.op = .init ∧ u.op = .bypass ∧ c = .initComplete) ∨ (s.op = .bypass ∧ u.op = .active ∧ c = .enableBridge) ∨
        (s.op = .active ∧ u.op = .bypass ∧ (c = .disableBridge ∨ c = .resetDatapath)) := fun {u} changed e => by
      rcases e.op with same | k | ⟨hi, ha, hc⟩ | ⟨hi, hb, hc⟩
      · exact absurd same changed
      · exact .inl k
      · rw [ha] at changed ⊢
        cases hs : s.op with
        | init => exact absurd hs hi
        | bypass => exact .inr (.inl ⟨rfl, rfl, hc⟩)
        | active => exact absurd hs.symm changed
      · rw [hb] at changed ⊢
        cases hs : s.op with
        | init => exact absurd hs hi
        | bypass => exact absurd hs.symm changed
        | active => exact .inr (.inr ⟨rfl, rfl, hc⟩)
    cases exec_outcome h h1 h2 with
    | row _ e => exact effect changed e
    | @done u e data => exact effect (u := u) changed e
    | deaf | unheard | refused | shown | clash | occupied => exact absurd rfl changed
  · cases exec_outcome h h1 h2 with
    | row _ e | done e data =>
      obtain ⟨period, prescale⟩ := e.timing run n1 n2
      exact ⟨period, prescale, e.offsets run n1 n2⟩
    | deaf | unheard | refused | shown | clash | occupied => exact ⟨rfl, rfl, fun _ => rfl⟩
  · have effect : ∀ {u : State}, Effect s c u →
        ((s.window w).enabled = true → (u.window w).base = (s.window w).base ∧ (u.window w).limit = (s.window w).limit ∧
          (u.window w).ports = (s.window w).ports ∧ (u.window w).cls = (s.window w).cls ∧
          (u.window w).channel = (s.window w).channel) ∧
        ((∀ b, c ≠ .enableWindow b) → (∀ b, c ≠ .disableWindow b) → (u.window w).enabled = (s.window w).enabled) :=
        fun {u} e => by
      rcases e.windows with k | k
      · obtain ⟨n, hn⟩ := k w
        rw [hn]
        exact ⟨fun _ => ⟨rfl, rfl, rfl, rfl, rfl⟩, fun _ _ => rfl⟩
      · cases k with
        | put v base limit ports cls channel off =>
          by_cases e : v = w
          · subst e
            rw [State.window_withWindow_same]
            exact ⟨fun on => absurd on (by simp [off]), fun _ _ => rfl⟩
          · rw [State.window_withWindow_ne _ e]
            exact ⟨fun _ => ⟨rfl, rfl, rfl, rfl, rfl⟩, fun _ _ => rfl⟩
        | enable b v => exact ⟨fun _ => s.withWindow_enabled v w true, fun n => absurd rfl (n b)⟩
        | disable b v => exact ⟨fun _ => s.withWindow_enabled v w false, fun _ n => absurd rfl (n b)⟩
    cases exec_outcome h h1 h2 with
    | row _ e => exact effect e
    | @done u e data => exact effect (u := u) e
    | deaf | unheard | refused | shown | clash | occupied =>
      exact ⟨fun _ => ⟨rfl, rfl, rfl, rfl, rfl⟩, fun _ _ => rfl⟩

end Sys2Proof.Machine

/-! PROOFS. The staged data of a state, and what a change does to them: every change is a chain of the steps below, so that
each invariant of the staged data is kept by every step of the block once these keep it (R4 to R23, R50 to R61). -/

namespace Sys2Proof.Machine

/-! ## The staged data -/

/-- What of a record of the drain queue bears on the staged data (R50, R51). -/
structure DrainStage where
  group : GroupId
  sequence : BitVec 16
  phase : Phase
  next : Option PoolIndex
  outstanding : Nat

/-- The staged data: the pool, what of each group bears on it (its lists, its commit sequence, its entry limit and the
entries it counts as allocated and as gone), the drain engine, and the drain writes on port M. -/
structure Stage where
  entry : PoolIndex → Option Entry
  openList : GroupId → List PoolIndex
  drainList : GroupId → List PoolIndex
  sequence : GroupId → BitVec 16
  entryLimit : GroupId → Byte
  allocated : GroupId → Count
  gone : GroupId → Count
  queue : List DrainStage
  leftovers : List (GroupId × PoolIndex)
  writes : List (GroupId × PoolIndex)

def Drain.stage (d : Drain) : DrainStage := ⟨d.group, d.sequence, d.phase, d.next, d.outstanding⟩

/-- The entries a group counts as gone from the table: drained, failed or discarded (R47). -/
def GroupCounts.gone (c : GroupCounts) : Count := c.drained + c.failed + c.discarded

/-- The staged data of a state. -/
def State.stage (s : State) : Stage where
  entry := s.entry
  openList g := (s.group g).openList
  drainList g := (s.group g).drainList
  sequence g := (s.group g).sequence
  entryLimit g := (s.group g).entryLimit
  allocated g := (s.group g).counts.allocated
  gone g := (s.group g).counts.gone
  queue := s.drain.queue.map Drain.stage
  leftovers := s.drain.leftovers
  writes := s.outstandingDrains

namespace Stage

def entryIs (st : EntryState) (x : Stage) (i : PoolIndex) : Bool :=
  match x.entry i with
  | some e => decide (e.state = st)
  | none => false

def firstQueued (x : Stage) (list : List PoolIndex) : Option PoolIndex := list.find? (x.entryIs .queued)

/-- An acknowledged entry leaves the table (R21). -/
def settle (g : GroupId) (i : PoolIndex) (x : Stage) : Stage :=
  if i ∈ x.drainList g then
    { x with
      entry := Function.update x.entry i none
      drainList := Function.update x.drainList g ((x.drainList g).erase i)
      gone := Function.update x.gone g (x.gone g + 1) }
  else x

/-- A head generation that waits only for leftover writes becomes ISSUING once none is left (R51). -/
def wake (x : Stage) : Stage :=
  match x.queue with
  | d :: rest => if d.phase = .waiting ∧ x.leftovers = [] then { x with queue := { d with phase := .issuing } :: rest } else x
  | [] => x

/-- The drain engine counts an acknowledgement for the head generation, or as a leftover write (R54, R55, R61). -/
def acknowledge (x : Stage) : Stage :=
  if x.leftovers.isEmpty then
    match x.queue with
    | d :: rest =>
      if d.phase = .closing ∧ d.outstanding - 1 = 0 then wake { x with queue := rest }
      else { x with queue := { d with outstanding := d.outstanding - 1 } :: rest }
    | [] => x
  else wake { x with leftovers := x.leftovers.tail }

/-- RESET_DATAPATH: only the WRITING entries stay, and their writes are left over (R23, R48, R61). -/
def reset (x : Stage) : Stage :=
  { x with
    entry := fun i => if x.entryIs .writing i then x.entry i else none
    openList := fun _ => []
    drainList := fun g => (x.drainList g).filter (x.entryIs .writing)
    gone := fun g => x.gone g + BitVec.ofNat 32 ((x.openList g).length +
      ((x.drainList g).length - ((x.drainList g).filter (x.entryIs .writing)).length))
    queue := []
    leftovers := x.writes }

end Stage

open Function (update)

/-- One step of the staged data: a placement, or with `works` one of the lists, the drain engine and the limits, or with
`frees` one that gives up entries of a draining list. -/
inductive StageStep (x : Stage) : (works frees : Bool) → Stage → Prop
  /-- A write merges into an open entry (R8). -/
  | merge {works frees : Bool} (p : Port) (g : GroupId) (i : PoolIndex) (m : LaneSet) (d : Lanes) (e : Entry)
      (hi : i ∈ x.openList g) (he : x.entry i = some e) :
      StageStep x works frees { x with entry := update x.entry i (some (e.mergeWrite p m d)) }
  /-- A write takes a free entry (R4, R9). -/
  | allocate {works frees : Bool} (p : Port) (g : GroupId) (w : WordIndex) (m : LaneSet) (d : Lanes) (i : PoolIndex)
      (room : (x.openList g).length < (x.entryLimit g).toNat) (free : x.entry i = none) :
      StageStep x works frees { x with
        entry := update x.entry i (some (Entry.allocate p g w m d))
        openList := update x.openList g (x.openList g ++ [i])
        allocated := update x.allocated g (x.allocated g + 1) }
  /-- A commit event with nothing collected (R36). -/
  | emptyCommit {frees : Bool} (g : GroupId) (ho : x.openList g = []) (hd : x.drainList g = []) :
      StageStep x true frees { x with sequence := update x.sequence g (x.sequence g + 1) }
  /-- A commit event that hands the open list over (R19, R35). -/
  | commit {frees : Bool} (g : GroupId) (ho : x.openList g ≠ []) (hd : x.drainList g = []) :
      StageStep x true frees { x with
        entry := fun i => if i ∈ x.openList g
          then (x.entry i).map fun e => { e with state := .queued, gen := .draining (x.sequence g + 1) } else x.entry i
        openList := update x.openList g []
        drainList := update x.drainList g (x.openList g)
        sequence := update x.sequence g (x.sequence g + 1)
        queue := x.queue ++ [⟨g, x.sequence g + 1,
          if x.queue.isEmpty && x.leftovers.isEmpty then .issuing else .waiting, (x.openList g).head?, 0⟩] }
  /-- The open list freed and counted discarded (R22, R43). -/
  | abort {frees : Bool} (g : GroupId) :
      StageStep x true frees { x with
        entry := fun i => if i ∈ x.openList g then none else x.entry i
        openList := update x.openList g []
        gone := update x.gone g (x.gone g + BitVec.ofNat 32 (x.openList g).length) }
  /-- The drain engine issues its next entry (R20, R52). -/
  | issue {frees : Bool} (d : DrainStage) (rest : List DrainStage) (i : PoolIndex) (e : Entry) (hq : x.queue = d :: rest)
      (hp : d.phase = .issuing) (hn : d.next = some i) (he : x.entry i = some e) (next : Option PoolIndex)
      (hnext : next = (x.drainList d.group).find? fun j => decide (j ≠ i) && x.entryIs .queued j) :
      StageStep x true frees { x with
        entry := update x.entry i (some { e with state := .writing })
        queue := { d with
          next := next, outstanding := d.outstanding + 1, phase := if next.isSome then .issuing else .closing } :: rest
        writes := x.writes ++ [(d.group, i)] }
  /-- The oldest drain write is acknowledged (R21, R54, R61). -/
  | acknowledge (g : GroupId) (i : PoolIndex) (more : List (GroupId × PoolIndex)) (hw : x.writes = (g, i) :: more) :
      StageStep x true true (Stage.settle g i { x with writes := more }).acknowledge
  /-- RESET_DATAPATH (R23, R48, R61). -/
  | reset : StageStep x true true x.reset
  /-- The entry limit of a group that is IDLE or OFF written (R29). -/
  | limit {frees : Bool} (g : GroupId) (v : Byte) (ho : x.openList g = []) :
      StageStep x true frees { x with entryLimit := update x.entryLimit g v }

/-- A chain of such steps. -/
abbrev StageSteps (works frees : Bool) : Stage → Stage → Prop :=
  Relation.ReflTransGen fun x y => StageStep x works frees y

/-! ## The staged data after each operation -/

/-- What of a group bears on the staged data. -/
structure Group.SameStage (a b : Group) : Prop where
  openList : b.openList = a.openList
  drainList : b.drainList = a.drainList
  sequence : b.sequence = a.sequence
  entryLimit : b.entryLimit = a.entryLimit
  allocated : b.counts.allocated = a.counts.allocated
  gone : b.counts.gone = a.counts.gone

theorem Group.SameStage.refl (g : Group) : g.SameStage g := ⟨rfl, rfl, rfl, rfl, rfl, rfl⟩

theorem State.outstandingDrains_of_eq {s t : State} (h : t.arb.outstanding = s.arb.outstanding) :
    t.outstandingDrains = s.outstandingDrains := by unfold State.outstandingDrains; rw [h]

/-- Changes that do not bear on the staged data. -/
theorem State.stage_of_same {s t : State} (hp : t.pool = s.pool) (hg : ∀ g, (s.group g).SameStage (t.group g))
    (hq : t.drain.queue.map Drain.stage = s.drain.queue.map Drain.stage) (hl : t.drain.leftovers = s.drain.leftovers)
    (ho : t.outstandingDrains = s.outstandingDrains) : t.stage = s.stage := by
  unfold State.stage
  rw [hq, hl, ho]
  congr 1
  · exact funext fun i => State.entry_eq hp i
  · exact funext fun g => (hg g).openList
  · exact funext fun g => (hg g).drainList
  · exact funext fun g => (hg g).sequence
  · exact funext fun g => (hg g).entryLimit
  · exact funext fun g => (hg g).allocated
  · exact funext fun g => (hg g).gone

/-- Changes outside the pool, the groups, the drain engine and port M. -/
theorem State.stage_of_eq {s t : State} (hp : t.pool = s.pool) (hg : t.groups = s.groups) (hd : t.drain = s.drain)
    (ho : t.arb.outstanding = s.arb.outstanding) : t.stage = s.stage :=
  State.stage_of_same hp (fun g => State.group_eq hg g ▸ .refl _) (by rw [hd]) (by rw [hd]) (State.outstandingDrains_of_eq ho)

theorem StageSteps.of_eq {s t : State} {works frees : Bool} (h : t.stage = s.stage) :
    StageSteps works frees s.stage t.stage := by rw [h]

/-- A group changed in nothing that bears on the staged data. -/
theorem State.stage_withGroup {s : State} {g : GroupId} {x : Group} (h : (s.group g).SameStage x) :
    (s.withGroup g x).stage = s.stage := by
  refine State.stage_of_same (by simp) (fun k => ?_) (by simp) (by simp) (State.outstandingDrains_of_eq (by simp))
  by_cases e : g = k
  · subst e; rw [State.group_withGroup_same]; exact h
  · rw [State.group_withGroup_ne _ e]; exact .refl _

end Sys2Proof.Machine

/-! PROOFS. The steps of the staged data that placements and retries take. -/

namespace Sys2Proof.Machine

open Function (update)

/-- A group as the staged data show it. -/
structure Stage.Shows (y : Stage) (h : GroupId) (g : Group) : Prop where
  openList : g.openList = y.openList h
  drainList : g.drainList = y.drainList h
  sequence : g.sequence = y.sequence h
  entryLimit : g.entryLimit = y.entryLimit h
  allocated : g.counts.allocated = y.allocated h
  gone : g.counts.gone = y.gone h

/-- The staged data read off: the pool, each group, the drain engine and port M. -/
theorem State.stage_ext {t : State} {y : Stage} (he : ∀ i, t.entry i = y.entry i) (hg : ∀ h, y.Shows h (t.group h))
    (hq : t.drain.queue.map Drain.stage = y.queue) (hl : t.drain.leftovers = y.leftovers)
    (hw : t.outstandingDrains = y.writes) : t.stage = y := by
  cases y
  unfold State.stage
  congr 1
  · exact funext he
  · exact funext fun h => (hg h).openList
  · exact funext fun h => (hg h).drainList
  · exact funext fun h => (hg h).sequence
  · exact funext fun h => (hg h).entryLimit
  · exact funext fun h => (hg h).allocated
  · exact funext fun h => (hg h).gone

/-- Staged data that show every group as before, but for one. -/
theorem Stage.Shows.of_one {s t : State} {y : Stage} {g : GroupId} {x : Group}
    (hg : ∀ h, t.group h = if h = g then x else s.group h) (hx : y.Shows g x)
    (ho : ∀ h, h ≠ g → y.Shows h (s.group h)) (h : GroupId) : y.Shows h (t.group h) := by
  rw [hg h]
  by_cases e : h = g
  · subst e; rw [if_pos rfl]; exact hx
  · rw [if_neg e]; exact ho h e

theorem State.mergeTarget_some {s : State} {g : GroupId} {w : WordIndex} {i : PoolIndex} (h : s.mergeTarget g w = some i) :
    i ∈ (s.group g).openList ∧ ∃ e, s.entry i = some e := by
  unfold State.mergeTarget at h
  split at h
  · cases h
  · refine ⟨List.mem_of_find?_eq_some h, ?_⟩
    have := List.find?_some h
    split at this
    · exact ⟨_, ‹_›⟩
    · cases this

theorem State.lowestFree_some {s : State} {i : PoolIndex} (h : s.lowestFree = some i) : s.entry i = none := by
  simpa using List.find?_some h

theorem State.allocationIndex_some {s : State} {g : GroupId} {i : PoolIndex} (h : s.allocationIndex g = some i) :
    (s.group g).openList.length < (s.group g).entryLimit.toNat ∧ s.entry i = none := by
  unfold State.allocationIndex at h
  split at h
  · exact ⟨‹_›, State.lowestFree_some h⟩
  · cases h

/-- A count that is no allocation and no entry gone. -/
theorem State.countGroup_stage (s : State) (g : GroupId) {f : GroupCounts → GroupCounts}
    (ha : ∀ c, (f c).allocated = c.allocated) (hg : ∀ c, (f c).gone = c.gone) : (s.countGroup g f).stage = s.stage :=
  State.stage_withGroup ⟨rfl, rfl, rfl, rfl, ha _, hg _⟩

section
variable (s : State) {works frees : Bool}

/-! ## Placements and retries -/

/-- Of the staged data the pool is only the entries. -/
theorem State.withPool_stage (x : Vector (Option Entry) 64) :
    (s.withPool x).stage = { s.stage with entry := (s.withPool x).entry } := rfl

/-- A merge writes the entry it merges into (R8). -/
theorem State.merge_stage (p : Port) (g : GroupId) (m : LaneSet) (d : Lanes) {i : PoolIndex} {e : Entry}
    (he : s.entry i = some e) :
    ((s.withPool (updateEntries [i] (Entry.mergeWrite p m d) s.pool)).countGroup g fun c =>
      { c with merged := c.merged + 1 }).stage =
      { s.stage with entry := update s.stage.entry i (some (e.mergeWrite p m d)) } := by
  rw [State.countGroup_stage (f := fun c => { c with merged := c.merged + 1 }) _ g (fun _ => rfl) fun _ => rfl]
  rw [State.withPool_stage]
  refine congrArg (fun f => { s.stage with entry := f }) (funext fun j => ?_)
  rw [State.entry_updateEntries]
  by_cases e : j = i
  · subst e; simp [he]
  · simp [e, State.stage]

/-- An allocation writes a free entry at the tail of the open list (R4, R9). -/
theorem State.allocate_stage (g : GroupId) (i : PoolIndex) (e : Entry) :
    ((s.withPool (s.pool.set i (some e))).withGroup g { s.group g with
      openList := (s.group g).openList ++ [i]
      counts := { (s.group g).counts with allocated := (s.group g).counts.allocated + 1 } }).stage =
      { s.stage with
        entry := update s.stage.entry i (some e)
        openList := update s.stage.openList g (s.stage.openList g ++ [i])
        allocated := update s.stage.allocated g (s.stage.allocated g + 1) } := by
  refine State.stage_ext (fun j => ?_)
    (Stage.Shows.of_one (s := s) (fun h => State.group_withGroup (s.withPool _) g h _) ?_ fun h hne => ?_) rfl rfl rfl
  · refine (State.entry_setPool s i j (some e)).trans ?_
    by_cases h : i = j
    · subst h; simp
    · simp [h, Ne.symm h, State.stage]
  · constructor <;> simp [State.stage, GroupCounts.gone]
  · constructor <;> simp [State.stage, hne]

theorem State.place_stage (p : Port) (g : GroupId) (w : WordIndex) (m : LaneSet) (d : Lanes) :
    StageSteps works frees s.stage (s.place p g w m d).1.stage := by
  unfold State.place
  split
  · rename_i i h
    obtain ⟨hi, e, he⟩ := State.mergeTarget_some h
    dsimp only
    rw [State.merge_stage s p g m d he]
    exact .single (.merge p g i m d e hi he)
  · split
    · rename_i i h
      obtain ⟨room, free⟩ := State.allocationIndex_some h
      dsimp only
      rw [State.allocate_stage s g i]
      exact .single (.allocate p g w m d i room free)
    · split
      · exact StageSteps.of_eq ((State.stage_of_eq (by simp) (by simp) (by simp) (by simp)).trans
          (State.countGroup_stage s g (f := fun c => { c with rejections := c.rejections + 1 }) (fun _ => rfl) fun _ => rfl))
      · exact .refl

theorem State.moveOn_stage (p : Port) : (s.moveOn p).stage = s.stage :=
  State.stage_of_eq (by simp) (by simp) (by simp) (by simp)

theorem State.moveOnAll_stage (ports : List Port) : (State.moveOnAll ports s).stage = s.stage :=
  State.stage_of_eq (by simp) (by simp) (by simp) (by simp)

theorem State.retryHold_stage (h : Hold) : StageSteps works frees s.stage (s.retryHold h).1.stage := by
  unfold State.retryHold
  dsimp only
  split
  · rename_i w m d _ _ _
    split
    · exact (s.place_stage h.port h.group w m d).trans
        (StageSteps.of_eq (State.stage_of_eq (by simp) (by simp) (by simp) (by simp)))
    · exact (s.place_stage h.port h.group w m d).trans
        (StageSteps.of_eq (State.stage_of_eq (by simp) (by simp) (by simp) (by simp)))
    · exact (s.place_stage h.port h.group w m d).trans
        (StageSteps.of_eq (State.stage_of_eq (by simp) (by simp) (by simp) (by simp)))
    · exact .refl
  · exact .refl

theorem State.retryAll_stage (holds : List Hold) :
    ∀ s : State, StageSteps works frees s.stage (State.retryAll holds s).1.stage := by
  induction holds with
  | nil => exact fun s => .refl
  | cons h holds ih => exact fun s => .trans (s.retryHold_stage h) (ih _)

theorem State.retryHolds_stage (concerned : Hold → Bool) :
    StageSteps works frees s.stage (s.retryHolds concerned).stage := by
  unfold State.retryHolds
  dsimp only
  rw [State.moveOnAll_stage]
  exact State.retryAll_stage _ s

theorem State.placeHead_stage (p : Port) : StageSteps works frees s.stage (s.placeHead p).stage := by
  unfold State.placeHead
  dsimp only
  split
  · rename_i w m d _ _ _ _
    split
    · exact .refl
    · rename_i g _ _
      split
      · exact StageSteps.of_eq (State.stage_of_eq (by simp) (by simp) (by simp) (by simp))
      · split
        · exact (s.place_stage p g w m d).trans
            (StageSteps.of_eq (State.stage_of_eq (by simp) (by simp) (by simp) (by simp)))
        · exact (s.place_stage p g w m d).trans
            (StageSteps.of_eq (State.stage_of_eq (by simp) (by simp) (by simp) (by simp)))
        · exact (s.place_stage p g w m d).trans
            (StageSteps.of_eq (State.stage_of_eq (by simp) (by simp) (by simp) (by simp)))
        · exact StageSteps.of_eq (State.stage_of_eq (by simp) (by simp) (by simp) (by simp))
  · exact .refl

end

end Sys2Proof.Machine

/-! PROOFS. The steps of the staged data that every row takes. -/

namespace Sys2Proof.Machine

open Function (update)

theorem StageStep.to {x y z : Stage} {works frees : Bool} (h : StageStep x works frees y) (e : z = y) :
    StageStep x works frees z := e ▸ h

section
variable (s : State) {frees : Bool}

/-! ## Commits -/

theorem State.committed_outstandingDrains (g : GroupId) : (s.committed g).outstandingDrains = s.outstandingDrains :=
  State.outstandingDrains_of_eq (by unfold State.committed; split <;> simp)

theorem State.committed_stage (g : GroupId) (hd : (s.group g).drainList = []) :
    StageStep s.stage true frees (s.committed g).stage := by
  by_cases ho : (s.group g).openList = []
  · refine (StageStep.emptyCommit (x := s.stage) g ho hd).to (State.stage_ext (fun i => ?_)
      (Stage.Shows.of_one (State.committed_group s g) ?_ fun h hne => ?_) ?_ ?_ (s.committed_outstandingDrains g))
    · rw [State.committed_entry]
      simp [ho, State.stage]
    · constructor <;> simp [State.stage, ho, GroupCounts.gone]
    · constructor <;> simp [State.stage, hne]
    · rw [State.committed_drain, if_pos ho]; rfl
    · rw [State.committed_drain, if_pos ho]; rfl
  · refine (StageStep.commit (x := s.stage) g ho hd).to (State.stage_ext (State.committed_entry s g)
      (Stage.Shows.of_one (State.committed_group s g) ?_ fun h hne => ?_) ?_ ?_ (s.committed_outstandingDrains g))
    · constructor <;> simp [State.stage, ho, GroupCounts.gone]
    · constructor <;> simp [State.stage, hne]
    · rw [State.committed_drain, if_neg ho]
      simp [State.stage, Drain.stage]
    · rw [State.committed_drain, if_neg ho]; rfl

theorem State.takeCommit_stage (g : GroupId) (hd : (s.group g).drainList = []) :
    StageSteps true frees s.stage (s.takeCommit g).stage := by
  rw [State.takeCommit_eq]
  exact .head (s.committed_stage g hd) (State.retryHolds_stage _ _)

theorem Group.drainList_of_not_draining {g : Group} (h : g.isDraining = false) : g.drainList = [] := by
  simpa [Group.isDraining] using h

theorem State.slotAt_stage (g : GroupId) : StageSteps true frees s.stage (s.slotAt g).stage := by
  unfold State.slotAt
  split
  · exact StageSteps.of_eq ((State.stage_of_eq (by simp [State.missSlot]) (by simp [State.missSlot])
      (by simp [State.missSlot]) (by simp [State.missSlot])).trans (State.countGroup_stage s g
        (f := fun c => { c with missedSlots := c.missedSlots + 1 }) (fun _ => rfl) fun _ => rfl))
  · rename_i h
    exact s.takeCommit_stage g (Group.drainList_of_not_draining (by simpa using h))

theorem State.slotsAt_stage (groups : List GroupId) :
    ∀ s : State, StageSteps true frees s.stage (State.slotsAt groups s).stage := by
  induction groups with
  | nil => exact fun s => .refl
  | cons g groups ih => exact fun s => .trans (s.slotAt_stage g) (ih _)

theorem State.commitNow_stage (groups : List GroupId) :
    ∀ s : State, StageSteps true frees s.stage (State.commitNow groups s).1.stage := by
  induction groups with
  | nil => exact fun s => .refl
  | cons g groups ih =>
    intro s
    unfold State.commitNow
    repeat' split
    · exact ih s
    · exact ih s
    · rename_i h
      exact .trans (s.takeCommit_stage g (Group.drainList_of_not_draining (by simpa using h))) (ih _)

/-! ## Wraps and expiries -/

theorem State.evaluateSlotRange_stage : s.evaluateSlotRange.stage = s.stage :=
  State.stage_of_same (by simp) (fun g => by rw [State.evaluateSlotRange_group]; exact ⟨rfl, rfl, rfl, rfl, rfl, rfl⟩)
    (by simp) (by simp) (State.outstandingDrains_of_eq (by simp))

theorem State.wrapApplied_stage : s.wrapApplied.stage = s.stage := by
  refine State.stage_of_same ?_ (fun g => ?_) (by simp) (by simp) (State.outstandingDrains_of_eq (by simp))
  · unfold State.wrapApplied
    split <;> simp [State.wrapEntered]
  · rw [State.wrapApplied_group]
    exact ⟨rfl, rfl, rfl, rfl, rfl, rfl⟩

theorem State.wrap_stage : StageSteps true frees s.stage s.wrap.stage := by
  rw [State.wrap_eq, ← s.wrapApplied_stage]
  exact State.slotsAt_stage _ _

theorem State.aborted_stage (g : GroupId) : StageStep s.stage true frees (s.aborted g).stage := by
  refine (StageStep.abort (x := s.stage) g).to (State.stage_ext (s.aborted_entry g)
    (Stage.Shows.of_one (s.aborted_group g) ?_ fun h hne => ?_) (by simp [State.stage]) (by simp [State.stage])
    (State.outstandingDrains_of_eq (by simp)))
  · constructor <;> simp [State.stage, GroupCounts.gone, add_assoc]
  · constructor <;> simp [State.stage, hne]

theorem State.abortOpen_stage (g : GroupId) : StageSteps true frees s.stage (s.abortOpen g).stage := by
  by_cases h : (s.group g).openList = []
  · rw [State.abortOpen_of_empty h]
  · rw [State.abortOpen_eq h]
    exact .head (s.aborted_stage g) (State.retryHolds_stage _ _)

theorem State.expireHold_stage (p : Port) : (s.expireHold p).stage = s.stage := by
  unfold State.expireHold
  repeat' split
  · rename_i h _ _ _ r cls _
    have answered : ((s.dropHold p).answerRefused p cls r .holdTimeout).stage = s.stage :=
      State.stage_of_eq (by simp) (by simp) (by simp) (by simp)
    have counted := ((s.dropHold p).answerRefused p cls r .holdTimeout).countGroup_stage h.group
      (f := fun c => { c with holdTimeouts := c.holdTimeouts + 1 }) (fun _ => rfl) fun _ => rfl
    exact (State.stage_of_eq (by simp) (by simp) (by simp) (by simp)).trans (counted.trans answered)
  all_goals rfl

theorem State.refreshEscalated_stage : s.refreshEscalated.stage = s.stage := rfl

theorem State.expireBudget_stage (g : GroupId) : (s.expireBudget g).stage = s.stage := by
  unfold State.expireBudget
  split
  · generalize hq : s.drain.queue.map _ = queue
    have late : (s.withDrain { s.drain with queue := queue }).stage = s.stage := by
      refine State.stage_of_same rfl (fun k => .refl _) ?_ rfl rfl
      subst hq
      rw [State.withDrain_drain, List.map_map]
      refine List.map_congr_left fun d _ => ?_
      simp only [Function.comp_apply]
      split <;> rfl
    have counted := (s.withDrain { s.drain with queue := queue }).countGroup_stage g
      (f := fun c => { c with lateDrains := c.lateDrains + 1 }) (fun _ => rfl) fun _ => rfl
    exact (State.refreshEscalated_stage _).trans ((State.stage_of_eq (by simp) (by simp) (by simp) (by simp)).trans
      (counted.trans late))
  · rfl

end

end Sys2Proof.Machine

/-! PROOFS. The steps of the staged data at port M, at RESET_DATAPATH, and all together. -/

namespace Sys2Proof.Machine

open Function (update)

section
variable {s : State} {frees : Bool}

/-! ## Issuing -/

/-- Changes outside the pool, the groups and the drain engine that leave the drain writes on port M. -/
theorem State.stage_of_groups {t : State} (hp : t.pool = s.pool) (hg : t.groups = s.groups) (hd : t.drain = s.drain)
    (ho : t.outstandingDrains = s.outstandingDrains) : t.stage = s.stage :=
  State.stage_of_same hp (fun g => by rw [State.group_eq hg]; exact .refl _) (by rw [hd]) (by rw [hd]) ho

theorem State.drainCandidate_some {d : Drain} {i : PoolIndex} {e : Entry} (h : s.drainCandidate = some (d, i, e)) :
    ∃ rest, s.drain.queue = d :: rest ∧ d.phase = .issuing ∧ d.next = some i ∧ s.entry i = some e := by
  unfold State.drainCandidate at h
  split at h
  · cases h
  · rename_i d' rest hq
    split at h
    · rename_i j hp hn
      obtain ⟨e', he, same⟩ := Option.map_eq_some_iff.mp h
      injection same with h1 h2
      injection h2 with h2 h3
      subst h1 h2 h3
      exact ⟨rest, hq, hp, hn, he⟩
    · cases h

theorem State.outstandingDrains_recordGrant_drain (s : State) (g : GroupId) (i : PoolIndex) (r : BusRequest) :
    (s.recordGrant .drain (.drain g i) r).outstandingDrains = s.outstandingDrains ++ [(g, i)] := by
  simp [State.outstandingDrains, State.recordGrant]

theorem State.grantDrain_stage (s : State) : StageSteps true frees s.stage s.grantDrain.stage := by
  unfold State.grantDrain
  split
  · rename_i d i e h
    obtain ⟨rest, hq, hp, hn, he⟩ := State.drainCandidate_some h
    have drain := State.issueDrain_drain (d := d) he
    rw [hq, List.tail_cons] at drain
    refine .single ((StageStep.issue (x := s.stage) d.stage (rest.map Drain.stage) i e ?_ hp hn he _ rfl).to
      (State.stage_ext (fun j => ?_) (fun h => ?_) ?_ ?_ ?_))
    · simp [State.stage, hq]
    · rw [State.entry_eq (s := s.issueDrain d i) (by simp), State.issueDrain_entry he]
      exact (Function.update_apply s.entry i _ j).symm
    · rw [State.group_eq (s := s) (by simp)]
      exact ⟨rfl, rfl, rfl, rfl, rfl, rfl⟩
    · rw [(State.recordGrant_frame _ _ _ _).2.2.2.2.2.2.1, drain]
      rfl
    · rw [(State.recordGrant_frame _ _ _ _).2.2.2.2.2.2.1, drain]
      rfl
    · rw [State.outstandingDrains_recordGrant_drain, State.outstandingDrains_of_eq (s := s) (by simp)]
      rfl
  · exact .refl

theorem State.grant_stage (s : State) : StageSteps true frees s.stage s.grant.stage := by
  unfold State.grant
  repeat' split
  · rename_i p _
    unfold State.grantPort
    split
    · refine StageSteps.of_eq (State.stage_of_groups (by simp) (by simp) (by simp) ?_)
      simp [State.outstandingDrains, State.recordGrant]
    · exact .refl
  · exact s.grantDrain_stage
  · exact .refl
  · exact .refl

/-! ## Acknowledgements -/

theorem State.settleEntry_stage (s : State) (g : GroupId) (i : PoolIndex) (status : Status) :
    (s.settleEntry g i status).stage = s.stage.settle g i := by
  unfold Stage.settle
  by_cases h : i ∈ (s.group g).drainList
  · rw [if_pos (show i ∈ s.stage.drainList g from h)]
    refine State.stage_ext (fun j => (State.settleEntry_entry status h j).trans (Function.update_apply s.entry i none j).symm)
      (Stage.Shows.of_one (State.settleEntry_group status h) ?_ fun h hne => ?_) (by simp; rfl) (by simp; rfl)
      (State.outstandingDrains_of_eq (by simp))
    · constructor
      · simp [Group.settled, State.stage]
      · simp [Group.settled, State.stage]
      · simp [Group.settled, State.stage]
      · simp [Group.settled, State.stage]
      · simp [Group.settled, State.stage]
      · cases status <;> simp [Group.settled, State.stage, GroupCounts.gone] <;> ring
    · constructor <;> simp [State.stage, hne]
  · rw [if_neg (show i ∉ s.stage.drainList g from h)]
    unfold State.settleEntry
    rw [if_neg h]

/-- A change of the drain engine, seen on the staged data. -/
theorem State.stage_of_drain {t : State} (hp : t.pool = s.pool) (hg : t.groups = s.groups)
    (ho : t.arb.outstanding = s.arb.outstanding) :
    t.stage = { s.stage with queue := t.drain.queue.map Drain.stage, leftovers := t.drain.leftovers } :=
  State.stage_ext (State.entry_eq hp) (fun g => by rw [State.group_eq hg]; exact ⟨rfl, rfl, rfl, rfl, rfl, rfl⟩) rfl rfl
    (State.outstandingDrains_of_eq ho)

/-- A drain queue's records at a wake of its head. -/
def wokenStages : List DrainStage → List DrainStage
  | [] => []
  | d :: rest => { d with phase := if d.phase = .waiting then .issuing else d.phase } :: rest

theorem wokenQueue_stage (q : List Drain) : (wokenQueue q).map Drain.stage = wokenStages (q.map Drain.stage) := by
  cases q <;> rfl

theorem Stage.wake_eq {x : Stage} (h : x.leftovers = []) : x.wake = { x with queue := wokenStages x.queue } := by
  unfold Stage.wake
  split
  · rename_i d rest hq
    by_cases hp : d.phase = .waiting
    · rw [if_pos ⟨hp, h⟩, hq, wokenStages, if_pos hp]
    · rw [if_neg fun k => hp k.1, hq, wokenStages, if_neg hp, ← hq]
  · rename_i hq
    rw [hq, wokenStages, ← hq]

theorem Stage.wake_of_leftovers {x : Stage} (h : x.leftovers ≠ []) : x.wake = x := by
  unfold Stage.wake
  split
  · exact if_neg fun k => h k.2
  · rfl

theorem State.ackGeneration_stage (status : Status) (h : s.drain.leftovers = []) :
    (s.ackGeneration status).stage = s.stage.acknowledge := by
  have empty : s.stage.leftovers.isEmpty = true := by simp [State.stage, h]
  unfold Stage.acknowledge
  rw [if_pos empty, State.stage_of_drain (by simp) (by simp) (State.ackGeneration_outstanding s status)]
  cases hq : s.drain.queue with
  | nil =>
    have same : s.ackGeneration status = s := by
      unfold State.ackGeneration
      rw [hq]
    have queue : s.stage.queue = [] := by simp [State.stage, hq]
    rw [same, queue]
    rfl
  | cons d rest =>
    have queue : s.stage.queue = d.stage :: rest.map Drain.stage := by simp [State.stage, hq]
    rw [queue]
    dsimp only
    by_cases k : d.phase = .closing ∧ d.outstanding - 1 = 0
    · have gen : s.ackGeneration status =
          (s.withDrain { s.drain with queue := d.acknowledged status :: rest }).retire (d.acknowledged status) := by
        unfold State.ackGeneration
        rw [hq]
        refine if_pos ?_
        rw [Drain.acknowledged_eq]
        exact k
      rw [if_pos (show d.stage.phase = .closing ∧ d.stage.outstanding - 1 = 0 from k), gen, (State.retire_drain _ _).1,
        State.retired_drain (by exact h), Stage.wake_eq (by exact h)]
      dsimp only [State.withDrain_drain, List.tail_cons]
      rw [wokenQueue_stage, show s.stage.leftovers = [] from h]
    · have gen : s.ackGeneration status = s.withDrain { s.drain with queue := d.acknowledged status :: rest } := by
        unfold State.ackGeneration
        rw [hq]
        refine if_neg ?_
        rw [Drain.acknowledged_eq]
        exact k
      rw [if_neg (show ¬ (d.stage.phase = .closing ∧ d.stage.outstanding - 1 = 0) from k), gen]
      dsimp only [State.withDrain_drain, List.map_cons]
      rw [Drain.acknowledged_eq]
      rfl

theorem State.ackLeftover_stage (h : s.drain.leftovers ≠ []) : s.ackLeftover.stage = s.stage.acknowledge := by
  obtain ⟨x, left, hl⟩ := List.exists_cons_of_ne_nil h
  have left' : s.stage.leftovers = x :: left := hl
  unfold Stage.acknowledge
  rw [left', if_neg (by simp), State.stage_of_drain (s := s) (by simp) (by simp) (by simp), State.ackLeftover_drain hl]
  dsimp only [List.tail_cons]
  by_cases e : left = []
  · rw [if_pos e, wokenQueue_stage, Stage.wake_eq (by exact e), e]
    rfl
  · rw [if_neg e, Stage.wake_of_leftovers (by exact e)]
    rfl

theorem State.acknowledged_stage (s : State) (g : GroupId) (i : PoolIndex) (status : Status) :
    (s.acknowledged g i status).stage = (s.stage.settle g i).acknowledge := by
  rw [← State.settleEntry_stage s g i status]
  have same : (s.settleEntry g i status).drain.leftovers = s.drain.leftovers := by simp
  unfold State.acknowledged
  split
  · rename_i h
    exact State.ackGeneration_stage status (same.trans (by simpa using h))
  · rename_i h
    exact State.ackLeftover_stage (by rw [same]; simpa using h)

/-- An acknowledgement comes first, and then the placements of its retries. -/
theorem State.memoryResponse_stage (s : State) (status : Status) (memory : Lanes) :
    ∃ y, (y = s.stage ∨ StageStep s.stage true true y) ∧
      ∀ {works frees : Bool}, StageSteps works frees y (s.memoryResponse status memory).stage := by
  unfold State.memoryResponse
  split
  · exact ⟨_, .inl rfl, .refl⟩
  · rename_i item rest ho
    dsimp only
    split
    · rename_i owner p t k howner
      refine ⟨_, .inl rfl, StageSteps.of_eq (State.stage_of_groups (by simp) (by simp) (by simp) ?_)⟩
      rw [State.outstandingDrains_of_eq (s := s.withArb { s.arb with outstanding := rest }) (by simp)]
      simp [State.outstandingDrains, ho, howner]
    · rename_i owner g i howner
      rw [State.ackDrain_eq]
      have writes : s.stage.writes = (g, i) :: (s.withArb { s.arb with outstanding := rest }).outstandingDrains := by
        simp [State.stage, State.outstandingDrains, ho, howner]
      refine ⟨_, .inr ((StageStep.acknowledge (x := s.stage) g i _ writes).to ?_), State.retryHolds_stage _ _⟩
      rw [State.acknowledged_stage]
      rfl

/-! ## RESET_DATAPATH -/

theorem State.discardEntries_entry (s : State) (i : PoolIndex) :
    s.discardEntries.entry i = if s.entryIs .writing i then s.entry i else none := by
  unfold State.entryIs State.entry State.discardEntries State.withPool
  simp only [Fin.getElem_fin, Vector.getElem_map]
  change (match s.pool[i.val] with | some x => if x.state = EntryState.writing then some x else none | none => none) = _
  cases s.pool[i.val] <;> simp

theorem State.resetDatapath_stage (s : State) : s.resetDatapath.stage = s.stage.reset := by
  have cut : ((s.withOp .bypass).discardEntries.markPassages.resetDrain.resetCapture).stage = s.stage.reset := by
    refine State.stage_ext (fun i => ?_) (fun g => ?_) ?_ ?_ ?_
    · rw [State.entry_eq (s := (s.withOp .bypass).discardEntries) (by simp [State.resetDrain, State.resetCapture]),
        State.discardEntries_entry]
      rfl
    · rw [State.group_eq (s := (s.withOp .bypass).discardEntries) (by simp [State.resetDrain, State.resetCapture]),
        State.discardEntries_group]
      constructor
      all_goals simp [State.discardGroup, State.stage, Stage.reset, GroupCounts.gone, add_assoc]
      all_goals rfl
    · simp [State.resetDrain, State.resetCapture, State.refreshEscalated, State.refreshBusy, Stage.reset]
    · simp [State.resetDrain, State.resetCapture, State.refreshEscalated, State.refreshBusy, Stage.reset]
      rfl
    · exact State.outstandingDrains_of_eq 
        (by simp [State.resetDrain, State.resetCapture, State.refreshEscalated, State.refreshBusy])
  refine Eq.trans ?_ cut
  unfold State.resetDatapath
  exact State.stage_of_eq (by simp) (by simp) (by simp) (by simp)

end

/-! ## Every effect -/

theorem State.limit_stage {s : State} {frees : Bool} {g : GroupId} (v : Byte) (h : (s.group g).openList = []) :
    StageStep s.stage true frees (s.withGroup g { s.group g with entryLimit := v }).stage := by
  refine (StageStep.limit (x := s.stage) g v h).to (State.stage_ext (fun i => State.entry_eq (by simp) i)
    (Stage.Shows.of_one (s := s) (fun k => s.group_withGroup g k _) ?_ fun k hne => ?_) (by simp; rfl) (by simp; rfl)
    (State.outstandingDrains_of_eq (by simp)))
  · constructor <;> simp [State.stage]
  · constructor <;> simp [State.stage, hne]

theorem Group.openList_of_quiet {g : Group} (h : g.isQuiet = true) : g.openList = [] := by
  simp only [Group.isQuiet, Bool.and_eq_true, List.isEmpty_iff] at h
  exact h.1

theorem StageSteps.after {s u t : State} {frees : Bool} (h : StageSteps true frees u.stage t.stage) (e : u.stage = s.stage) :
    StageSteps true frees s.stage t.stage := e ▸ h

theorem State.slotInstant_stage (s : State) {frees : Bool} : StageSteps true frees s.stage s.slotInstant.stage :=
  State.slotsAt_stage _ s

theorem State.withTb_stage (s : State) (x : Timebase) : (s.withTb x).stage = s.stage := rfl

theorem State.syncEdge_stage (s : State) {frees : Bool} : StageSteps true frees s.stage s.syncEdge.stage := by
  unfold State.syncEdge
  dsimp only
  repeat' split
  · exact (State.wrap_stage _).after (State.stage_of_groups (by simp) (by simp) (by simp)
      (State.outstandingDrains_of_eq (by simp)))
  · exact (State.wrap_stage _).after (s.withTb_stage _)
  · exact .refl

/-- The rows that may give up entries of a draining list. -/
def rowFrees : Instr → Bool
  | .memoryResponse .. => true
  | .resetDatapath => true
  | _ => false

/-- The effect of every row is a chain of steps of the staged data. -/
theorem Effect.stageSteps {c : Instr} {s t : State} (h : Effect s c t) : StageSteps true (rowFrees c) s.stage t.stage := by
  cases h with
  | groupOn | groupOff | triggerSource | mode | fullPolicy | holdLimit | drainBudget | logCommits =>
    exact StageSteps.of_eq (State.stage_withGroup ⟨rfl, rfl, rfl, rfl, rfl, rfl⟩)
  | entryLimit _ _ g v h => exact .single (State.limit_stage v (Group.openList_of_quiet h))
  | slotOffset _ _ g v =>
    refine StageSteps.of_eq ?_
    unfold State.writeSlotOffset
    split
    · exact State.stage_withGroup ⟨rfl, rfl, rfl, rfl, rfl, rfl⟩
    · exact (State.evaluateSlotRange_stage _).trans (State.stage_withGroup ⟨rfl, rfl, rfl, rfl, rfl, rfl⟩)
  | period =>
    refine StageSteps.of_eq ?_
    unfold State.writePeriod
    split
    · rfl
    · exact State.evaluateSlotRange_stage _
  | counterStep =>
    unfold State.counterStep
    split
    · exact (State.slotInstant_stage _).after (s.withTb_stage _)
    · exact .refl
  | naturalWrap =>
    unfold State.naturalWrap
    split
    · exact s.wrap_stage
    · exact .refl
  | syncInEdge => exact s.syncEdge_stage
  | commitInEdge => exact State.slotsAt_stage _ _
  | startTimebase => exact (State.slotInstant_stage _).after (s.withTb_stage _)
  | holdLimitExpiry p => exact StageSteps.of_eq (s.expireHold_stage p)
  | drainBudgetExpiry g => exact StageSteps.of_eq (s.expireBudget_stage g)
  | stagedWritePlacement p => exact s.placeHead_stage p
  | grant => exact s.grant_stage
  | memoryResponse status memory =>
    obtain ⟨y, first, rest⟩ := s.memoryResponse_stage status memory
    rcases first with rfl | first
    · exact rest
    · exact .head first rest
  | commitNow _ groups => exact State.commitNow_stage groups s
  | abortGroup _ g => exact s.abortOpen_stage g
  | resetDatapath => rw [s.resetDatapath_stage]; exact .single .reset
  | partialFrame | initComplete =>
    simp only [State.discardFrame, State.initComplete]
    split <;> exact .refl
  | _ => exact StageSteps.of_eq (State.stage_of_groups (by simp) (by simp) (by simp) (State.outstandingDrains_of_eq (by simp)))

theorem StageStep.any {x y : Stage} {works frees : Bool} (h : StageStep x works frees y) : StageStep x true true y := by
  cases h with
  | merge p g i m d e hi he => exact .merge p g i m d e hi he
  | allocate p g w m d i room free => exact .allocate p g w m d i room free
  | emptyCommit g ho hd => exact .emptyCommit g ho hd
  | commit g ho hd => exact .commit g ho hd
  | abort g => exact .abort g
  | issue d rest i e hq hp hn he next hnext => exact .issue d rest i e hq hp hn he next hnext
  | acknowledge g i more hw => exact .acknowledge g i more hw
  | reset => exact .reset
  | limit g v ho => exact .limit g v ho

theorem Change.stageSteps {s t : State} (h : Change s t) : StageSteps true true s.stage t.stage := by
  obtain ⟨c, e⟩ | ⟨m, x, d, e, rfl⟩ := h.effect
  · exact Relation.ReflTransGen.mono (fun _ _ => StageStep.any) _ _ e.stageSteps
  · exact .refl

end Sys2Proof.Machine

/-! PROOFS. The balances of the counts, the entry limits, the drain engine's lines and the window table's rule (R13, R47,
R59, R60, R88, R112). -/

namespace Sys2Proof.Machine

open Function (update)

/-! ## The groups' counts and entry limits -/

/-- The balance of the groups' counts, on the staged data (R47). -/
def Stage.Balanced (x : Stage) : Prop :=
  ∀ g, x.allocated g = x.gone g + BitVec.ofNat 32 ((x.openList g).length + (x.drainList g).length)

/-- Every open generation within its entry limit, on the staged data (R13). -/
def Stage.WithinLimit (x : Stage) : Prop := ∀ g, (x.openList g).length ≤ (x.entryLimit g).toNat

theorem State.stage_balanced_iff (s : State) : s.stage.Balanced ↔ ∀ g, (s.group g).balanced := Iff.rfl

theorem State.stage_withinLimit_iff (s : State) : s.stage.WithinLimit ↔ s.openWithinLimit := Iff.rfl

/-- A list without one of its members. -/
theorem length_erase_succ {l : List PoolIndex} {i : PoolIndex} (h : i ∈ l) : (l.erase i).length + 1 = l.length := by
  rw [List.length_erase_of_mem h]
  have := List.length_pos_of_mem h
  omega

theorem Stage.settle_balanced {x : Stage} (h : x.Balanced) (g : GroupId) (i : PoolIndex) : (x.settle g i).Balanced := by
  unfold Stage.settle
  split
  · rename_i hi
    intro k
    by_cases e : k = g
    · subst e
      have len := length_erase_succ hi
      simp only [Function.update_self]
      rw [h k, ← len]
      simp only [BitVec.ofNat_add, BitVec.ofNat_eq_ofNat]
      ring
    · simp only [Function.update_of_ne e]
      exact h k
  · exact h

theorem Stage.settle_withinLimit {x : Stage} (h : x.WithinLimit) (g : GroupId) (i : PoolIndex) :
    (x.settle g i).WithinLimit := by
  unfold Stage.settle
  split <;> exact h

/-- An acknowledgement at the drain engine leaves pool, groups and port M. -/
theorem Stage.acknowledge_frame (x : Stage) : ∃ q l, x.acknowledge = { x with queue := q, leftovers := l } := by
  have wake : ∀ y : Stage, ∃ q, y.wake = { y with queue := q } := fun y => by
    unfold Stage.wake
    repeat' split
    · exact ⟨_, rfl⟩
    · exact ⟨_, rfl⟩
    · exact ⟨_, rfl⟩
  unfold Stage.acknowledge
  repeat' split
  · rename_i d rest _ _
    obtain ⟨q, hq⟩ := wake { x with queue := rest }
    exact ⟨q, x.leftovers, hq⟩
  · exact ⟨_, _, rfl⟩
  · exact ⟨_, _, rfl⟩
  · obtain ⟨q, hq⟩ := wake { x with leftovers := x.leftovers.tail }
    exact ⟨q, _, hq⟩

theorem StageStep.keeps_balanced {x y : Stage} (step : StageStep x true true y) (h : x.Balanced) : y.Balanced := by
  cases step with
  | merge | emptyCommit | issue | limit => exact h
  | allocate p g w m d i =>
    intro k
    by_cases e : k = g
    · subst e
      simp only [Function.update_self, List.length_append, List.length_singleton]
      rw [h k]
      simp only [BitVec.ofNat_add, BitVec.ofNat_eq_ofNat]
      ring
    · simp only [Function.update_of_ne e]
      exact h k
  | commit g ho hd =>
    intro k
    by_cases e : k = g
    · subst e
      simp only [Function.update_self]
      rw [h k, hd, Nat.add_comm]
    · simp only [Function.update_of_ne e]
      exact h k
  | abort g =>
    intro k
    by_cases e : k = g
    · subst e
      simp only [Function.update_self]
      rw [h k]
      simp only [List.length_nil, Nat.zero_add, BitVec.ofNat_add]
      ring
    · simp only [Function.update_of_ne e]
      exact h k
  | acknowledge g i more =>
    obtain ⟨q, l, e⟩ := Stage.acknowledge_frame (Stage.settle g i { x with writes := more })
    rw [e]
    exact Stage.settle_balanced (x := { x with writes := more }) h g i
  | reset =>
    intro k
    have le := List.length_filter_le (x.entryIs .writing) (x.drainList k)
    refine (h k).trans ?_
    simp only [Stage.reset, List.length_nil, Nat.zero_add]
    rw [add_assoc, ← BitVec.ofNat_add]
    congr 2
    omega

theorem StageStep.keeps_withinLimit {x y : Stage} (step : StageStep x true true y) (h : x.WithinLimit) : y.WithinLimit := by
  cases step with
  | merge | emptyCommit | issue => exact h
  | allocate p g w m d i room =>
    intro k
    by_cases e : k = g
    · subst e
      simpa using room
    · simpa only [Function.update_of_ne e] using h k
  | commit g | abort g =>
    intro k
    by_cases e : k = g
    · subst e
      simp
    · simpa only [Function.update_of_ne e] using h k
  | acknowledge g i more =>
    obtain ⟨q, l, e⟩ := Stage.acknowledge_frame (Stage.settle g i { x with writes := more })
    rw [e]
    exact Stage.settle_withinLimit (x := { x with writes := more }) h g i
  | reset => exact fun k => Nat.zero_le _
  | limit g v ho =>
    intro k
    by_cases e : k = g
    · subst e
      simp [ho]
    · simpa only [Function.update_of_ne e] using h k

/-- A property of the staged data that every step keeps is kept by every change. -/
theorem Change.keeps_stage {P : Stage → Prop} (keeps : ∀ x y, StageStep x true true y → P x → P y)
    {s t : State} (h : Change s t)
    (hs : P s.stage) : P t.stage := by
  have chain : ∀ y, StageSteps true true s.stage y → P y := fun y steps => by
    induction steps with
    | refl => exact hs
    | tail _ step ih => exact keeps _ _ step ih
  exact chain _ h.stageSteps

/-! ## The lines of the drain engine -/

theorem State.drainLinesAgree_of_same {s t : State} (hd : t.drain = s.drain) (he : t.arb.escalated = s.arb.escalated)
    (h : s.drainLinesAgree) : t.drainLinesAgree := by
  obtain ⟨busy, late⟩ := h
  exact ⟨by rw [hd]; exact busy, by rw [he, hd]; exact late⟩

section
variable {s : State} (h : s.drainLinesAgree)
include h

theorem State.retryHolds_drainLines (concerned : Hold → Bool) : (s.retryHolds concerned).drainLinesAgree :=
  State.drainLinesAgree_of_same (by simp) (by simp) h

theorem State.takeCommit_drainLines (g : GroupId) : (s.takeCommit g).drainLinesAgree := by
  rw [State.takeCommit_eq]
  refine State.retryHolds_drainLines ?_ _
  by_cases ho : (s.group g).openList = []
  · exact State.drainLinesAgree_of_same (by rw [State.committed_drain, if_pos ho]) (by simp) h
  · obtain ⟨-, late⟩ := h
    unfold State.drainLinesAgree
    rw [State.committed_drain, if_neg ho]
    have arb : (s.committed g).arb = s.arb := by simp
    rw [arb]
    exact ⟨by simp, by simpa using late⟩

theorem State.slotAt_drainLines (g : GroupId) : (s.slotAt g).drainLinesAgree := by
  by_cases hd : (s.group g).drainList = []
  · rw [State.slotAt_of_idle hd]
    exact State.takeCommit_drainLines h g
  · rw [State.slotAt_of_draining hd]
    exact State.drainLinesAgree_of_same (by simp) (by simp) h

end

theorem State.slotsAt_drainLines (groups : List GroupId) :
    ∀ s : State, s.drainLinesAgree → (State.slotsAt groups s).drainLinesAgree := by
  induction groups with
  | nil => exact fun s h => h
  | cons g groups ih => exact fun s h => ih _ (State.slotAt_drainLines h g)

theorem State.commitNow_drainLines (groups : List GroupId) :
    ∀ s : State, s.drainLinesAgree → (State.commitNow groups s).1.drainLinesAgree := by
  induction groups with
  | nil => exact fun s h => h
  | cons g groups ih =>
    intro s h
    unfold State.commitNow
    repeat' split
    · exact ih s h
    · exact ih s h
    · exact ih _ (State.takeCommit_drainLines h g)

section
variable {s : State} (h : s.drainLinesAgree)
include h

theorem State.slotInstant_drainLines : s.slotInstant.drainLinesAgree := State.slotsAt_drainLines _ s h

theorem State.wrap_drainLines : s.wrap.drainLinesAgree := by
  rw [State.wrap_eq]
  exact State.slotInstant_drainLines (State.drainLinesAgree_of_same (by simp) (by simp) h)

theorem State.syncEdge_drainLines : s.syncEdge.drainLinesAgree := by
  unfold State.syncEdge
  dsimp only
  repeat' split
  · exact State.wrap_drainLines (State.drainLinesAgree_of_same (by simp) (by simp) h)
  · exact State.wrap_drainLines (State.drainLinesAgree_of_same (by simp) (by simp) h)
  · exact h

theorem State.abortOpen_drainLines (g : GroupId) : (s.abortOpen g).drainLinesAgree :=
  State.drainLinesAgree_of_same (by simp) (by simp) h

theorem State.expireBudget_drainLines (g : GroupId) : (s.expireBudget g).drainLinesAgree := by
  unfold State.expireBudget
  split
  · obtain ⟨busy, -⟩ := h
    exact ⟨by simpa [State.refreshEscalated] using busy, by simp [State.refreshEscalated]⟩
  · exact h

theorem State.grant_drainLines : s.grant.drainLinesAgree := by
  unfold State.grant
  repeat' split
  · refine State.drainLinesAgree_of_same (by simp) ?_ h
    unfold State.grantPort
    split
    · simp [State.recordGrant]
    · rfl
  · unfold State.grantDrain
    split
    · rename_i d i e hc
      obtain ⟨rest, hq, -, -, he⟩ := State.drainCandidate_some hc
      obtain ⟨busy, late⟩ := h
      have drain : ((s.issueDrain d i).recordGrant .drain (.drain d.group i) (e.memoryWrite 0)).drain =
          (s.issueDrain d i).drain := by simp
      have escalated : ((s.issueDrain d i).recordGrant .drain (.drain d.group i) (e.memoryWrite 0)).arb.escalated =
          s.arb.escalated := by simp [State.recordGrant]
      unfold State.drainLinesAgree
      rw [drain, escalated, State.issueDrain_drain he]
      rw [hq] at busy late
      rw [hq]
      exact ⟨by simpa using busy, by simpa [Drain.issued] using late⟩
    · exact h
  · exact h
  · exact h

omit h in
theorem State.retire_drainLines (hl : s.drain.leftovers = []) (d : Drain) : (s.retire d).drainLinesAgree := by
  obtain ⟨drain, arb⟩ := s.retire_drain d
  unfold State.drainLinesAgree
  rw [drain, arb, State.retired_drain hl, State.retired_arb hl]
  exact ⟨by simp [wokenQueue_isEmpty], (wokenQueue_late _).symm⟩

theorem State.ackGeneration_drainLines (hl : s.drain.leftovers = []) (status : Status) :
    (s.ackGeneration status).drainLinesAgree := by
  unfold State.ackGeneration
  split
  · rename_i d rest hq
    obtain ⟨busy, late⟩ := h
    have counted : (s.withDrain { s.drain with queue := d.acknowledged status :: rest }).drainLinesAgree := by
      rw [hq] at busy late
      rw [Drain.acknowledged_eq]
      exact ⟨by simpa using busy, by simpa using late⟩
    dsimp only
    split
    · exact State.retire_drainLines (by exact hl) _
    · exact counted
  · exact h

theorem State.ackLeftover_drainLines (hl : s.drain.leftovers ≠ []) : s.ackLeftover.drainLinesAgree := by
  obtain ⟨x, left, hl⟩ := List.exists_cons_of_ne_nil hl
  obtain ⟨-, late⟩ := h
  have arb : s.ackLeftover.arb = s.arb := by simp
  unfold State.drainLinesAgree
  rw [State.ackLeftover_drain hl, arb, late]
  by_cases e : left = []
  · simp [e, wokenQueue_isEmpty, wokenQueue_late]
  · simp [e]

theorem State.memoryResponse_drainLines (status : Status) (memory : Lanes) :
    (s.memoryResponse status memory).drainLinesAgree := by
  unfold State.memoryResponse
  split
  · exact h
  · dsimp only
    split
    · exact State.drainLinesAgree_of_same (by simp) (by simp) h
    · rename_i rest _ _ g i _
      rw [State.ackDrain_eq]
      refine State.retryHolds_drainLines ?_ _
      have settled : ((s.withArb { s.arb with outstanding := rest }).settleEntry g i status).drainLinesAgree :=
        State.drainLinesAgree_of_same (by simp) (by simp) h
      unfold State.acknowledged
      split
      · rename_i hl
        exact State.ackGeneration_drainLines settled (by simpa using hl) status
      · rename_i hl
        exact State.ackLeftover_drainLines settled (by simpa using hl)

omit h in
theorem State.resetDatapath_drainLines : s.resetDatapath.drainLinesAgree := by
  unfold State.resetDatapath
  exact State.drainLinesAgree_of_same (s := (s.withOp .bypass).discardEntries.markPassages.resetDrain)
    (by simp [State.resetCapture])
    (by simp [State.resetCapture]) ⟨rfl, rfl⟩

end

theorem Effect.keeps_drainLines {c : Instr} {s t : State} (e : Effect s c t) (h : s.drainLinesAgree) :
    t.drainLinesAgree := by
  cases e with
  | counterStep =>
    unfold State.counterStep
    split
    · exact State.slotInstant_drainLines (State.drainLinesAgree_of_same rfl rfl h)
    · exact h
  | naturalWrap =>
    unfold State.naturalWrap
    split
    · exact State.wrap_drainLines h
    · exact h
  | syncInEdge => exact State.syncEdge_drainLines h
  | commitInEdge => exact State.slotsAt_drainLines _ s h
  | startTimebase => exact State.slotInstant_drainLines (State.drainLinesAgree_of_same rfl rfl h)
  | drainBudgetExpiry g => exact State.expireBudget_drainLines h g
  | grant => exact State.grant_drainLines h
  | memoryResponse status memory => exact State.memoryResponse_drainLines h status memory
  | commitNow _ groups => exact State.commitNow_drainLines groups s h
  | resetDatapath => exact State.resetDatapath_drainLines
  | partialFrame | initComplete | period | slotOffset =>
    simp only [State.discardFrame, State.initComplete, State.writePeriod, State.writeSlotOffset]
    split <;> exact State.drainLinesAgree_of_same (by simp) (by simp) h
  | _ => exact State.drainLinesAgree_of_same (by simp) (by simp) h

end Sys2Proof.Machine

/-! PROOFS. The rule of the window table (R84, R88), and the invariants of the counts, lines and windows together. -/

namespace Sys2Proof.Machine

/-! ## The window table -/

theorem Window.overlaps_comm (v w : Window) : v.overlaps w = w.overlaps v := by
  unfold Window.overlaps
  exact decide_eq_decide.mpr and_comm

theorem Window.sharesPort_comm (v w : Window) : v.sharesPort w = w.sharesPort v := by
  unfold Window.sharesPort
  rw [BitVec.and_comm]

theorem Window.names_iff (w : Window) (g : GroupId) :
    w.names g = true ↔ w.enabled = true ∧ ∃ view, w.cls = .staged g view := by
  unfold Window.names
  cases w.cls with
  | pass => simp
  | staged h view =>
    simp only [Bool.and_eq_true, decide_eq_true_eq, WindowClass.staged.injEq]
    constructor
    · rintro ⟨on, rfl⟩
      exact ⟨on, view, rfl, rfl⟩
    · rintro ⟨on, _, rfl, -⟩
      exact ⟨on, rfl⟩

/-- Without a conflict a window meets no other enabled window (R88). -/
theorem State.overlaps_of_clear {s : State} {w v : WindowId} (clear : s.conflictingWindow w = none) (ne : v ≠ w)
    (on : (s.window v).enabled = true) (share : (s.window v).sharesPort (s.window w) = true) :
    (s.window v).overlaps (s.window w) = false := by
  have no := List.find?_eq_none.mp clear v (List.mem_finRange v)
  simpa [ne, on, share] using no

/-- The rule reads the fields of the windows and the groups' enables. -/
theorem State.windowsAgree_of_kept {s t : State} (hw : s.KeepsWindows t)
    (hg : ∀ w g, (s.window w).names g = true → (s.group g).enabled = true → (t.group g).enabled = true)
    (h : s.windowsAgree) : t.windowsAgree := by
  obtain ⟨shape, apart, named⟩ := h
  refine ⟨fun w => ?_, fun v w ne on on' share => ?_, fun w g n => ?_⟩
  · obtain ⟨n, hn⟩ := hw w
    rw [hn]
    exact shape w
  · obtain ⟨n, hn⟩ := hw v
    obtain ⟨m, hm⟩ := hw w
    rw [hn] at on share ⊢
    rw [hm] at on' share ⊢
    exact apart v w ne on on' share
  · obtain ⟨m, hm⟩ := hw w
    rw [hm] at n
    exact hg w g n (named w g n)

/-- One window replaced by one that keeps the rule. -/
theorem State.windowsAgree_withWindow {s : State} {w : WindowId} {x : Window} (h : s.windowsAgree)
    (hx : x.base.toNat % 4096 = 0 ∧ x.limit.toNat % 4096 = 0 ∧ x.base.toNat ≤ x.limit.toNat ∧ x.ports ≠ 0)
    (apart : x.enabled = true → ∀ v, v ≠ w → (s.window v).enabled = true → (s.window v).sharesPort x = true →
      (s.window v).overlaps x = false)
    (named : ∀ g, x.names g = true → (s.group g).enabled = true) : (s.withWindow w x).windowsAgree := by
  obtain ⟨shape, apart', named'⟩ := h
  have window : ∀ v, (s.withWindow w x).window v = if v = w then x else s.window v := fun v => by
    by_cases e : v = w
    · subst e
      rw [State.window_withWindow_same, if_pos rfl]
    · rw [State.window_withWindow_ne _ (Ne.symm e), if_neg e]
  refine ⟨fun v => ?_, fun v u ne on on' share => ?_, fun v g n => ?_⟩
  · rw [window]
    split
    · exact hx
    · exact shape v
  · rw [window v] at on share ⊢
    rw [window u] at on' share ⊢
    by_cases hv : v = w
    · have hu : u ≠ w := fun hu => ne (hv.trans hu.symm)
      rw [if_pos hv] at on share ⊢
      rw [if_neg hu] at on' share ⊢
      rw [Window.overlaps_comm]
      exact apart on u hu on' ((Window.sharesPort_comm _ _).trans share)
    · rw [if_neg hv] at on share ⊢
      by_cases hu : u = w
      · rw [if_pos hu] at on' share ⊢
        exact apart on' v hv on share
      · rw [if_neg hu] at on' share ⊢
        exact apart' v u ne on on' share
  · rw [window] at n
    rw [State.group_eq (s := s) (by simp)]
    split at n
    · exact named g n
    · exact named' v g n

theorem WindowEffect.keeps_windows {c : Instr} {s t : State} (e : WindowEffect s c t) (h : s.windowsAgree) :
    t.windowsAgree := by
  cases e with
  | put w base limit ports cls channel off hb hl hle hp =>
    refine State.windowsAgree_withWindow h ⟨hb, hl, hle, hp⟩ (fun on => absurd on (by simp [off])) fun g n => ?_
    exact absurd ((Window.names_iff _ g).mp n).1 (by simp [off])
  | enable b w clear named =>
    refine State.windowsAgree_withWindow h (h.1 w) (fun _ v ne on share => State.overlaps_of_clear clear ne on share)
      fun g n => ?_
    obtain ⟨view, cls⟩ := ((Window.names_iff _ g).mp n).2
    by_contra off
    have missing := (s.groupMissing_iff w).mpr ⟨g, view, cls, by simpa using off⟩
    simp [named] at missing
  | disable b w =>
    refine State.windowsAgree_withWindow h (h.1 w) (fun on => absurd on (by simp)) fun g n => ?_
    exact absurd ((Window.names_iff _ g).mp n).1 (by simp)

theorem Effect.keeps_windows {c : Instr} {s t : State} (e : Effect s c t) (h : s.windowsAgree) : t.windowsAgree := by
  rcases e.windows with k | k
  · refine State.windowsAgree_of_kept k (fun w g n on => ?_) h
    rcases e.enabled with same | ⟨x, rfl⟩ | ⟨x, unnamed, rfl⟩
    · rw [same]; exact on
    · rw [State.group_withGroup]
      split
      · rfl
      · exact on
    · rw [State.group_withGroup]
      split
      · rename_i hx
        subst hx
        have any := (s.names_any_iff g).mpr ⟨w, n⟩
        simp [unnamed] at any
      · exact on
  · exact k.keeps_windows h

/-! ## At reset -/

theorem State.reset_group (g : GroupId) : State.reset.group g = Group.reset := by
  simp [State.group, State.reset]

theorem State.reset_window (w : WindowId) : State.reset.window w = Window.reset := by
  simp [State.window, State.reset]

theorem State.reset_entry (i : PoolIndex) : State.reset.entry i = none := by
  simp [State.entry, State.reset]

theorem State.reset_balanced (g : GroupId) : (State.reset.group g).balanced := by
  rw [State.reset_group]
  rfl

theorem PortState.reset_balanced : PortState.reset.balanced := rfl

theorem State.reset_openWithinLimit : State.reset.openWithinLimit := fun g => by
  rw [State.reset_group]
  exact Nat.zero_le _

theorem State.reset_drainLinesAgree : State.reset.drainLinesAgree := ⟨rfl, rfl⟩

theorem State.reset_windowsAgree : State.reset.windowsAgree := by
  refine ⟨fun w => ?_, fun v w _ on => ?_, fun w g n => ?_⟩
  · rw [State.reset_window]
    decide
  · rw [State.reset_window] at on
    exact absurd on (by decide)
  · rw [State.reset_window] at n
    exact absurd ((Window.names_iff _ g).mp n).1 (by decide)

/-- Settles O58: each invariant is kept by every change a step is made of. -/
theorem countsLinesAndWindowsInvariant : Obligations.CountsLinesAndWindowsInvariant := by
  have start : ∀ (s : State) low listening, (s.startingState low listening).stage = State.reset.stage := fun _ _ _ => rfl
  refine ⟨fun s t h => ⟨fun p hs => ?_, fun hs => ?_, fun hs => ?_⟩, fun s t h => ⟨fun hs => ?_, fun hs => ?_⟩⟩
  · exact step_keeps (fun u => (u.port p).balanced) (fun u x hu => by
        rwa [← State.port_of_ports (s := u) (t := { u with pending := x }) rfl rfl p] at hu)
      (fun _ _ _ => by cases p <;> exact PortState.reset_balanced) (fun _ _ hu hc => hc.keeps_portBalance p hu) s t hs h
  · exact step_keeps (fun u => u.stage.Balanced) (fun _ _ hu => hu)
      (fun u low listening => by rw [start]; exact State.reset_balanced)
      (fun _ _ hu hc => hc.keeps_stage (fun _ _ => StageStep.keeps_balanced) hu) s t hs h
  · exact step_keeps (fun u => u.stage.WithinLimit) (fun _ _ hu => hu)
      (fun u low listening => by rw [start]; exact State.reset_openWithinLimit)
      (fun _ _ hu hc => hc.keeps_stage (fun _ _ => StageStep.keeps_withinLimit) hu) s t hs h
  · refine step_keeps State.drainLinesAgree (fun _ _ hu => hu) (fun _ _ _ => ⟨rfl, rfl⟩) (fun u v hu hc => ?_) s t hs h
    obtain ⟨c, e⟩ | ⟨m, x, d, e, rfl⟩ := hc.effect
    · exact e.keeps_drainLines hu
    · exact hu
  · refine step_keeps State.windowsAgree (fun _ _ hu => hu) (fun _ _ _ => State.reset_windowsAgree) (fun u v hu hc => ?_)
      s t hs h
    obtain ⟨c, e⟩ | ⟨m, x, d, e, rfl⟩ := hc.effect
    · exact e.keeps_windows hu
    · exact hu

end Sys2Proof.Machine

/-! PROOFS. The order of the request queues (R101, R102): every step at the ports keeps the requests in order, and a port
that freed its head moves on. -/

namespace Sys2Proof.Machine

/-! ## The order in two parts -/

/-- Settled requests first, then at most one head, then those behind; whether or not a head stands before them. -/
def looseQueue (q : List QueuedRequest) : Prop :=
  q.Pairwise fun x y => x.progress.isUnsettled = false ∨ y.progress.isBehind = true

/-- A queue with a request behind has a head. -/
def ledQueue (q : List QueuedRequest) : Prop :=
  (∃ x ∈ q, x.progress.isHead = true) ∨ ∀ x ∈ q, x.progress.isBehind = false

theorem ledQueue_cons_settled {x : QueuedRequest} {q : List QueuedRequest} (h : x.progress.isUnsettled = false) :
    ledQueue (x :: q) ↔ ledQueue q := by
  obtain ⟨hb, hh⟩ := Bool.or_eq_false_iff.mp h
  unfold ledQueue
  simp [hb, hh]

theorem ledQueue_middle {x : QueuedRequest} {pre post : List QueuedRequest} (h : x.progress.isUnsettled = false) :
    ledQueue (pre ++ x :: post) ↔ ledQueue (pre ++ post) := by
  obtain ⟨hb, hh⟩ := Bool.or_eq_false_iff.mp h
  unfold ledQueue
  simp [hb, hh, or_and_right, exists_or, or_imp, forall_and]

theorem looseQueue_cons_settled {x : QueuedRequest} {q : List QueuedRequest} (h : x.progress.isUnsettled = false) :
    looseQueue (x :: q) ↔ looseQueue q := by
  unfold looseQueue
  simp [h]

theorem looseQueue_cons_unsettled {x : QueuedRequest} {q : List QueuedRequest} (h : x.progress.isUnsettled = true) :
    looseQueue (x :: q) ↔ ∀ y ∈ q, y.progress.isBehind = true := by
  unfold looseQueue
  rw [List.pairwise_cons]
  simp only [h, Bool.true_eq_false, false_or]
  refine ⟨fun k => k.1, fun k => ⟨k, ?_⟩⟩
  exact List.pairwise_of_forall_mem_list fun _ _ y hy => .inr (k y hy)

/-- The order of R102 in its two parts. -/
theorem queueOrdered_iff (q : List QueuedRequest) : queueOrdered q = true ↔ looseQueue q ∧ ledQueue q := by
  induction q with
  | nil => simp [queueOrdered, looseQueue, ledQueue]
  | cons x q ih =>
    unfold queueOrdered
    cases hx : x.progress with
    | onM | answered =>
      have settled : x.progress.isUnsettled = false := by rw [hx]; rfl
      rw [looseQueue_cons_settled settled, ledQueue_cons_settled settled]
      exact ih
    | head =>
      have unsettled : x.progress.isUnsettled = true := by rw [hx]; rfl
      rw [looseQueue_cons_unsettled unsettled]
      simp only [List.all_eq_true]
      exact (and_iff_left (.inl ⟨x, List.mem_cons_self, by rw [hx]; rfl⟩)).symm
    | behind =>
      have unsettled : x.progress.isUnsettled = true := by rw [hx]; rfl
      rw [looseQueue_cons_unsettled unsettled]
      refine iff_of_false Bool.false_ne_true ?_
      rintro ⟨behind, ⟨y, hy, hh⟩ | none⟩
      · rcases List.mem_cons.mp hy with rfl | hy
        · rw [hx] at hh
          exact Bool.false_ne_true hh
        · have hb := behind y hy
          cases hp : y.progress <;> simp [hp, Progress.isBehind, Progress.isHead] at hb hh
      · have hb := none x List.mem_cons_self
        rw [hx] at hb
        exact Bool.false_ne_true hb.symm

/-! ## A request that goes on -/

theorem looseQueue_split {pre post : List QueuedRequest} {r : QueuedRequest} : looseQueue (pre ++ r :: post) ↔
    looseQueue pre ∧ looseQueue post ∧ (∀ y ∈ post, r.progress.isUnsettled = false ∨ y.progress.isBehind = true) ∧
      (∀ x ∈ pre, x.progress.isUnsettled = false ∨ r.progress.isBehind = true) ∧
      ∀ x ∈ pre, ∀ y ∈ post, x.progress.isUnsettled = false ∨ y.progress.isBehind = true := by
  unfold looseQueue
  rw [List.pairwise_append, List.pairwise_cons]
  simp only [List.mem_cons, forall_eq_or_imp]
  constructor
  · rintro ⟨hpre, ⟨hr, hpost⟩, hx⟩
    exact ⟨hpre, hpost, hr, fun x h => (hx x h).1, fun x h => (hx x h).2⟩
  · rintro ⟨hpre, hpost, hr, h1, h2⟩
    exact ⟨hpre, ⟨hr, hpost⟩, fun x h => ⟨h1 x h, h2 x h⟩⟩

/-- A request goes on and stays settled once settled; one that was behind has only settled requests before it. -/
theorem looseQueue_move {pre post : List QueuedRequest} {r x : QueuedRequest} (h : looseQueue (pre ++ r :: post))
    (behind : r.progress.isBehind = true → ∀ y ∈ pre, y.progress.isUnsettled = false)
    (settled : r.progress.isUnsettled = false → x.progress.isUnsettled = false) : looseQueue (pre ++ x :: post) := by
  rw [looseQueue_split] at h ⊢
  obtain ⟨hpre, hpost, hr, h1, h2⟩ := h
  refine ⟨hpre, hpost, fun y hy => (hr y hy).imp_left settled, fun y hy => ?_, h2⟩
  rcases h1 y hy with k | k
  · exact .inl k
  · exact .inl (behind k y hy)

/-- The head of a queue in order: only settled requests stand before it, and only requests behind after it. -/
theorem looseQueue_head {pre post : List QueuedRequest} {r : QueuedRequest} (h : looseQueue (pre ++ r :: post))
    (hr : r.progress.isHead = true) :
    (∀ y ∈ pre, y.progress.isUnsettled = false) ∧ ∀ y ∈ post, y.progress.isBehind = true := by
  obtain ⟨-, -, after, before, -⟩ := looseQueue_split.mp h
  have notBehind : r.progress.isBehind = false := by cases hp : r.progress <;> simp_all [Progress.isHead, Progress.isBehind]
  refine ⟨fun y hy => (before y hy).resolve_right (by simp [notBehind]), fun y hy => (after y hy).resolve_left ?_⟩
  simp [Progress.isUnsettled, hr]

theorem looseQueue_mark {q : List QueuedRequest} (h : looseQueue q) : looseQueue (q.map QueuedRequest.markPassage) := by
  unfold looseQueue at h ⊢
  rw [List.pairwise_map]
  refine h.imp fun {x y} k => ?_
  rw [x.markPassage_test Progress.isUnsettled fun _ _ _ => rfl, y.markPassage_test Progress.isBehind fun _ _ _ => rfl]
  exact k

theorem State.noHead_iff (s : State) (p : Port) : s.head p = none ↔ ∀ x ∈ (s.port p).queue, x.progress.isHead = false := by
  simp [State.head, State.firstRequest]

/-- Both queues in order but for their heads. -/
def State.Loose (s : State) : Prop := ∀ p, looseQueue (s.port p).queue

/-- A step at the ports keeps the queues in order. -/
theorem HeadStep.keeps_loose {s t : State} (step : HeadStep s t) (h : s.Loose) : t.Loose := by
  have at_port : ∀ {p : Port} {test : Progress → Bool} {r : QueuedRequest} {new : Progress},
      PortMove test r new (s.port p) (t.port p) → (∀ q, q ≠ p → t.port q = s.port q) →
      (r.progress.isBehind = true → s.head p = none ∧ test = Progress.isBehind) →
      (r.progress.isUnsettled = false → new.isUnsettled = false) → t.Loose :=
    fun {p} {test} {r} {new} move others first later q => by
    by_cases e : q = p
    · subst e
      obtain ⟨pre, post, hq, hq', hpre⟩ := move.split
      have before := h q
      rw [hq] at before
      rw [hq']
      refine looseQueue_move before (fun hb y hy => ?_) later
      obtain ⟨noHead, rfl⟩ := first hb
      refine Bool.or_eq_false_iff.mpr ⟨hpre y hy, (s.noHead_iff q).mp noHead y ?_⟩
      rw [hq]
      exact List.mem_append_left _ hy
    · rw [others q e]
      exact h q
  cases step with
  | elsewhere hA hB => exact fun q => by rw [State.port_of_ports hA hB]; exact h q
  | enter p r cls new hn hp ho =>
    refine at_port hp ho (fun _ => ⟨hn, rfl⟩) fun settled => ?_
    have behind : r.progress.isBehind = true := List.find?_some (p := fun x : QueuedRequest => x.progress.isBehind) hp.found
    simp [Progress.isUnsettled, behind] at settled
  | answer p r cls place a hp ho => exact at_port hp ho nofun fun _ => rfl
  | hold x r cls b hp ho => exact at_port hp ho nofun nofun
  | send p r cls hp ho => exact at_port hp ho nofun fun _ => rfl
  | respond p r cls a hp ho => exact at_port hp ho nofun fun _ => rfl
  | mark => exact fun q => by rw [State.markPassages_port]; exact looseQueue_mark (h q)
  | orphan p => exact fun q => by rw [State.dropHold_port]; exact h q

theorem HeadSteps.keeps_loose {s t : State} (steps : HeadSteps s t) (h : s.Loose) : t.Loose := by
  induction steps with
  | refl => exact h
  | tail _ step ih => exact step.keeps_loose ih

/-! ## The depth of the queues -/

theorem length_setFirst (test : Progress → Bool) (new : Progress) (q : List QueuedRequest) :
    (setFirst test new q).length = q.length := by
  induction q with
  | nil => rfl
  | cons x q ih =>
    unfold setFirst
    split <;> simp [ih]

/-- A step at the ports takes no request in and lets none go. -/
theorem HeadSteps.depth {s t : State} (steps : HeadSteps s t) (p : Port) :
    (t.port p).queue.length = (s.port p).queue.length ∧ (t.port p).waiting = (s.port p).waiting := by
  induction steps with
  | refl => exact ⟨rfl, rfl⟩
  | tail _ step ih =>
    obtain ⟨len, wait⟩ := ih
    rcases step.port_cases p with e | ⟨test, r, new, hp⟩ | e
    · rw [e]
      exact ⟨len, wait⟩
    · rw [hp.queue, hp.waiting, length_setFirst]
      exact ⟨len, wait⟩
    · rw [e, List.length_map]
      exact ⟨len, wait⟩

/-! ## Heads brought up -/

/-- A port whose head is free has no request behind. -/
def State.Led (s : State) (p : Port) : Prop := ledQueue (s.port p).queue

theorem State.bringHeads_led (p : Port) (n : Nat) : ∀ s : State,
    (s.port p).queue.countP (fun x => x.progress.isBehind) ≤ n → (s.bringHeads p n).Led p := by
  induction n with
  | zero =>
    intro s h
    refine .inr fun x hx => ?_
    simpa using List.countP_eq_zero.mp (Nat.le_zero.mp h) x hx
  | succ n ih =>
    intro s h
    unfold State.bringHeads
    split
    · rename_i r hn hf
      refine ih _ ?_
      obtain ⟨pre, post, hq, hr, hpre⟩ := find_split hf
      rw [State.enterHead_queue, hq, setFirst_of_split _ hr hpre]
      rw [hq] at h
      simp only [List.countP_append, List.countP_cons, hr, if_true, s.enteredAs_place p r.request] at h ⊢
      simp only [Bool.false_eq_true, if_false]
      omega
    · rename_i no
      cases hh : s.head p with
      | some x => exact .inl ⟨x, List.mem_of_find?_eq_some hh, by simpa using List.find?_some hh⟩
      | none =>
        refine .inr fun x hx => ?_
        cases hf : s.firstRequest p Progress.isBehind with
        | some r => exact absurd hf (no r hh)
        | none => simpa using List.find?_eq_none.mp hf x hx

theorem State.moveOn_led (s : State) (p : Port) : (s.moveOn p).Led p :=
  State.bringHeads_led p _ s List.countP_le_length

theorem State.Led.of_port {s t : State} {p : Port} (h : s.Led p) (e : t.port p = s.port p) : t.Led p := by
  unfold State.Led
  rw [e]
  exact h

theorem State.moveOn_keeps_led {s : State} (q : Port) {p : Port} (h : p = q ∨ s.Led p) : (s.moveOn q).Led p := by
  by_cases e : p = q
  · subst e
    exact s.moveOn_led p
  · exact (h.resolve_left e).of_port (State.moveOn_other _ e)

theorem State.moveOnAll_led (ports : List Port) : ∀ (s : State) {p : Port}, p ∈ ports ∨ s.Led p →
    (State.moveOnAll ports s).Led p := by
  induction ports with
  | nil => exact fun s p h => h.resolve_left List.not_mem_nil
  | cons q ports ih =>
    intro s p h
    refine ih (s.moveOn q) ?_
    by_cases mem : p ∈ ports
    · exact .inl mem
    · refine .inr (State.moveOn_keeps_led q ?_)
      rcases h with h | h
      · exact .inl ((List.mem_cons.mp h).resolve_right mem)
      · exact .inr h

end Sys2Proof.Machine

/-! PROOFS. Every row leaves a port that freed its head with the next one brought up (R102, R103), and port M with at most
four requests (R63). -/

namespace Sys2Proof.Machine

theorem ledQueue_setFirst_head {q : List QueuedRequest} {r : QueuedRequest}
    (h : q.find? (fun x => x.progress.isHead) = some r) (cls : Classification) (place : HeadPlace) :
    ledQueue (setFirst Progress.isHead (.head cls place) q) := by
  obtain ⟨pre, post, rfl, hr, hpre⟩ := find_split h
  rw [setFirst_of_split _ hr hpre]
  exact .inl ⟨_, List.mem_append_right _ List.mem_cons_self, rfl⟩

section
variable {s : State} {p : Port} (h : s.Led p)
include h

theorem State.Led.of_ports {t : State} (hA : t.portA = s.portA) (hB : t.portB = s.portB) : t.Led p :=
  h.of_port (State.port_of_ports hA hB p)

/-- A retry leaves a port led, or frees its head and has it move on. -/
theorem State.retryHold_led (x : Hold) : (s.retryHold x).2 = true ∧ p = x.port ∨ (s.retryHold x).1.Led p := by
  by_cases e : p = x.port
  · unfold State.retryHold
    dsimp only
    repeat' split
    · exact .inl ⟨rfl, e⟩
    · exact .inl ⟨rfl, e⟩
    · exact .inl ⟨rfl, e⟩
    · exact .inr h
    · exact .inr h
  · refine .inr ?_
    unfold State.retryHold
    dsimp only
    repeat' split
    · exact h.of_port (by rw [State.answerPlaced_port, if_neg e, State.dropHold_port, State.place_port])
    · exact h.of_port (by rw [State.answerPlaced_port, if_neg e, State.dropHold_port, State.place_port])
    · exact h.of_port (by rw [State.answerRefused_port, if_neg e, State.dropHold_port, State.place_port])
    · exact h
    · exact h

omit h in
theorem State.retryAll_led (holds : List Hold) : ∀ s : State, s.Led p →
    p ∈ (State.retryAll holds s).2 ∨ (State.retryAll holds s).1.Led p := by
  induction holds with
  | nil => exact fun s h => .inr h
  | cons x holds ih =>
    intro s h
    unfold State.retryAll
    dsimp only
    rcases State.retryHold_led h x with ⟨moved, rfl⟩ | led
    · rw [if_pos moved]
      exact .inl List.mem_cons_self
    · rcases ih _ led with mem | led
      · refine .inl ?_
        split
        · exact List.mem_cons_of_mem _ mem
        · exact mem
      · exact .inr led

theorem State.retryHolds_led (concerned : Hold → Bool) : (s.retryHolds concerned).Led p :=
  State.moveOnAll_led _ _ (State.retryAll_led _ s h)

theorem State.takeCommit_led (g : GroupId) : (s.takeCommit g).Led p := by
  rw [State.takeCommit_eq]
  exact State.retryHolds_led (h.of_ports (by simp) (by simp)) _

theorem State.slotAt_led (g : GroupId) : (s.slotAt g).Led p := by
  unfold State.slotAt
  split
  · exact h.of_ports (by simp) (by simp)
  · exact State.takeCommit_led h g

omit h in
theorem State.slotsAt_led (groups : List GroupId) : ∀ s : State, s.Led p → (State.slotsAt groups s).Led p := by
  induction groups with
  | nil => exact fun s h => h
  | cons g groups ih => exact fun s h => ih _ (State.slotAt_led h g)

omit h in
theorem State.commitNow_led (groups : List GroupId) : ∀ s : State, s.Led p → (State.commitNow groups s).1.Led p := by
  induction groups with
  | nil => exact fun s h => h
  | cons g groups ih =>
    intro s h
    unfold State.commitNow
    repeat' split
    · exact ih s h
    · exact ih s h
    · exact ih _ (State.takeCommit_led h g)

theorem State.slotInstant_led : s.slotInstant.Led p := State.slotsAt_led _ s h

theorem State.wrap_led : s.wrap.Led p := by
  rw [State.wrap_eq]
  exact State.slotInstant_led (h.of_ports (by simp) (by simp))

theorem State.syncEdge_led : s.syncEdge.Led p := by
  unfold State.syncEdge
  dsimp only
  repeat' split
  · exact State.wrap_led (h.of_ports (by simp) (by simp))
  · exact State.wrap_led (h.of_ports (by simp) (by simp))
  · exact h

theorem State.abortOpen_led (g : GroupId) : (s.abortOpen g).Led p := by
  by_cases ho : (s.group g).openList = []
  · rw [State.abortOpen_of_empty ho]
    exact h
  · rw [State.abortOpen_eq ho]
    exact State.retryHolds_led (h.of_ports (by simp) (by simp)) _

/-- A head answered and its port moving on. -/
theorem State.moveOn_led_of_others {t : State} {q : Port} (others : p ≠ q → t.port p = s.port p) : (t.moveOn q).Led p := by
  refine State.moveOn_keeps_led q ?_
  by_cases e : p = q
  · exact .inl e
  · exact .inr (h.of_port (others e))

theorem State.expireHold_led (q : Port) : (s.expireHold q).Led p := by
  unfold State.expireHold
  repeat' split
  · refine State.moveOn_led_of_others h fun e => ?_
    rw [State.raise_port, State.countGroup_port, State.answerRefused_port, if_neg e, State.dropHold_port]
  all_goals exact h

theorem State.placeHead_led (q : Port) : (s.placeHead q).Led p := by
  unfold State.placeHead
  dsimp only
  split
  · rename_i hh
    repeat' split
    · exact h
    · refine State.moveOn_led_of_others h fun e => ?_
      rw [State.answerRefused_port, if_neg e]
    · refine State.moveOn_led_of_others h fun e => ?_
      rw [State.answerPlaced_port, if_neg e, State.place_port]
    · refine State.moveOn_led_of_others h fun e => ?_
      rw [State.answerPlaced_port, if_neg e, State.place_port]
    · refine State.moveOn_led_of_others h fun e => ?_
      rw [State.answerRefused_port, if_neg e, State.place_port]
    · by_cases e : p = q
      · subst e
        unfold State.Led
        rw [State.withHolds_port, State.progressFirst_port, if_pos rfl]
        exact ledQueue_setFirst_head hh _ _
      · exact h.of_port (by rw [State.withHolds_port, State.progressFirst_port, if_neg e])
  · exact h

theorem State.grant_led : s.grant.Led p := by
  unfold State.grant
  repeat' split
  · rename_i q _
    unfold State.grantPort
    split
    · refine State.moveOn_led_of_others h fun e => ?_
      simp [State.recordGrant, State.countPort_port, State.progressFirst_port, e]
    · exact h
  · exact h.of_ports (by simp) (by simp)
  · exact h
  · exact h

/-- The answer of a request ON_M frees no head. -/
theorem State.routeToPort_led (q : Port) (status : Status) (memory : Lanes) : (s.routeToPort q status memory).Led p := by
  cases hf : s.firstRequest q Progress.isOnM with
  | none =>
    unfold State.routeToPort
    rw [hf]
    exact h
  | some x =>
    obtain ⟨pre, post, hq, hx, hpre⟩ := find_split hf
    obtain ⟨r, progress⟩ := x
    cases progress with
    | onM cls =>
      have port : (s.routeToPort q status memory).port p = (s.memoryAnswered q r cls status memory).port p := by
        cases r with
        | read => rw [State.routeToPort_read hf, State.hitFor_port]
        | write => rw [State.routeToPort_write hf]
      unfold State.Led
      rw [port]
      by_cases e : p = q
      · subst e
        unfold State.Led at h
        rw [hq, ledQueue_middle rfl] at h
        rw [State.memoryAnswered_port hq hpre]
        exact (ledQueue_middle rfl).mpr h
      · rw [State.memoryAnswered_other e]
        exact h
    | behind | head | answered => exact absurd hx Bool.false_ne_true

theorem State.memoryResponse_led (status : Status) (memory : Lanes) : (s.memoryResponse status memory).Led p := by
  unfold State.memoryResponse
  split
  · exact h
  · dsimp only
    split
    · rename_i rest _ _ q _ _ _
      exact State.routeToPort_led (s := s.withArb { s.arb with outstanding := rest }) (h.of_ports rfl rfl) q status memory
    · rename_i items _ _ g i _
      generalize hu : s.withArb { s.arb with outstanding := items } = u
      have hu' : u.Led p := h.of_ports (by rw [← hu]; rfl) (by rw [← hu]; rfl)
      obtain ⟨-, -, -, a, b, -⟩ := u.acknowledged_frame g i status
      rw [State.ackDrain_eq]
      exact State.retryHolds_led (hu'.of_ports a b) fun _ => true

omit h in
theorem State.discardHeld_other (s : State) {q p : Port} (e : p ≠ q) : (s.discardHeld q).port p = s.port p := by
  unfold State.discardHeld
  split
  · rw [State.answerRefused_port, if_neg e, State.dropHold_port]
  · exact s.dropHold_port q p

omit h in
theorem State.discardHolds_led (ports : List Port) : ∀ s : State, s.Led p →
    p ∈ ports ∨ (State.discardHolds ports s).Led p := by
  induction ports with
  | nil => exact fun s h => .inr h
  | cons q ports ih =>
    intro s h
    by_cases e : p = q
    · exact .inl (by rw [e]; exact List.mem_cons_self)
    · exact (ih _ (h.of_port (s.discardHeld_other e))).imp_left (List.mem_cons_of_mem q)

omit h in
theorem ledQueue_mark {q : List QueuedRequest} (h : ledQueue q) : ledQueue (q.map QueuedRequest.markPassage) := by
  have head := fun x : QueuedRequest => x.markPassage_test Progress.isHead fun _ _ _ => rfl
  have behind := fun x : QueuedRequest => x.markPassage_test Progress.isBehind fun _ _ _ => rfl
  unfold ledQueue at h ⊢
  simpa [head, behind] using h

theorem State.resetDatapath_led : s.resetDatapath.Led p := by
  unfold State.resetDatapath
  refine State.moveOnAll_led _ _ (State.discardHolds_led _ _ ?_)
  have marked : ((s.withOp .bypass).discardEntries.markPassages).Led p := by
    unfold State.Led
    rw [State.markPassages_port]
    exact ledQueue_mark (h.of_ports (t := (s.withOp .bypass).discardEntries) (by simp) (by simp))
  exact marked.of_ports (by simp [State.resetCapture, State.resetDrain, State.refreshEscalated, State.refreshBusy])
    (by simp [State.resetCapture, State.resetDrain, State.refreshEscalated, State.refreshBusy])

/-- A request that waits is accepted behind the others, and the port moves on. -/
theorem State.acceptRequest_led (q : Port) (r : BusRequest) : (s.acceptRequest q r).Led p := by
  unfold State.acceptRequest
  exact State.moveOn_led_of_others h fun e => State.port_withPort_ne _ (Ne.symm e) _

theorem State.presentRequest_led (q : Port) (r : BusRequest) : (s.presentRequest q r).Led p := by
  unfold State.presentRequest
  split
  · exact State.acceptRequest_led h q r
  · by_cases e : q = p
    · subst e
      unfold State.Led
      rw [State.port_withPort_same]
      exact h
    · exact h.of_port (State.port_withPort_ne _ e _)

theorem State.acceptWaiting_led (q : Port) : (s.acceptWaiting q).Led p := by
  unfold State.acceptWaiting
  repeat' split
  · exact h
  · refine State.acceptRequest_led ?_ q _
    by_cases e : q = p
    · subst e
      unfold State.Led
      rw [State.port_withPort_same]
      exact h
    · exact h.of_port (State.port_withPort_ne _ e _)
  · exact h

theorem State.takeResponse_led (q : Port) : (s.takeResponse q).Led p := by
  unfold State.takeResponse
  split
  · rename_i hd
    obtain ⟨r, rest, hq⟩ := State.delivered_some hd
    refine State.acceptWaiting_led ?_ q
    by_cases e : q = p
    · subst e
      unfold State.Led at h ⊢
      rw [hq, ledQueue_cons_settled rfl] at h
      rw [State.port_withPort_same, hq]
      exact h
    · exact h.of_port (State.port_withPort_ne _ e _)
  · exact h

end

/-- Every row leaves the ports led. -/
theorem Effect.keeps_led {c : Instr} {s t : State} (e : Effect s c t) {p : Port} (h : s.Led p) : t.Led p := by
  cases e with
  | requestAccept q r => exact State.presentRequest_led h q r
  | responseTaken q => exact State.takeResponse_led h q
  | counterStep =>
    unfold State.counterStep
    split
    · exact State.slotInstant_led (h.of_ports rfl rfl)
    · exact h
  | naturalWrap =>
    unfold State.naturalWrap
    split
    · exact State.wrap_led h
    · exact h
  | syncInEdge => exact State.syncEdge_led h
  | commitInEdge => exact State.slotsAt_led _ s h
  | startTimebase => exact State.slotInstant_led (h.of_ports rfl rfl)
  | holdLimitExpiry q => exact State.expireHold_led h q
  | stagedWritePlacement q => exact State.placeHead_led h q
  | grant => exact State.grant_led h
  | memoryResponse status memory => exact State.memoryResponse_led h status memory
  | commitNow _ groups => exact State.commitNow_led groups s h
  | abortGroup _ g => exact State.abortOpen_led h g
  | resetDatapath => exact State.resetDatapath_led h
  | partialFrame | initComplete | period | slotOffset =>
    simp only [State.discardFrame, State.initComplete, State.writePeriod, State.writeSlotOffset]
    split <;> exact h.of_ports (by simp) (by simp)
  | _ => exact h.of_ports (by simp) (by simp)

/-! ## Port M -/

theorem State.grant_memory {s : State} (h : s.arb.outstanding.length ≤ 4) : s.grant.arb.outstanding.length ≤ 4 := by
  unfold State.grant
  split
  · rename_i room
    have less : s.arb.outstanding.length + 1 ≤ 4 := room
    split
    · unfold State.grantPort
      split
      · simpa [State.recordGrant] using less
      · exact h
    · unfold State.grantDrain
      split
      · simpa [State.recordGrant] using less
      · exact h
    · exact h
  · exact h

theorem State.memoryResponse_memory {s : State} (h : s.arb.outstanding.length ≤ 4) (status : Status) (memory : Lanes) :
    (s.memoryResponse status memory).arb.outstanding.length ≤ 4 := by
  unfold State.memoryResponse
  split
  · exact h
  · rename_i item rest ho
    have shorter : rest.length ≤ 4 := by
      rw [ho] at h
      exact Nat.le_of_succ_le h
    dsimp only
    split
    · simpa using shorter
    · rw [State.ackDrain_eq, (State.retryHolds_frame _ _).2.2.2.1, (State.acknowledged_frame _ _ _ _).2.2.2.2.2.2.2.2.2]
      exact shorter

/-- Port M holds at most four requests (R63). -/
theorem Effect.keeps_memory {c : Instr} {s t : State} (e : Effect s c t) (h : s.arb.outstanding.length ≤ 4) :
    t.arb.outstanding.length ≤ 4 := by
  cases e with
  | grant => exact State.grant_memory h
  | memoryResponse status memory => exact State.memoryResponse_memory h status memory
  | partialFrame | counterStep | naturalWrap | initComplete | period | slotOffset =>
    simp only [State.discardFrame, State.counterStep, State.naturalWrap, State.initComplete, State.writePeriod,
      State.writeSlotOffset]
    split <;> simpa [State.slotInstant] using h
  | syncInEdge =>
    unfold State.syncEdge
    dsimp only
    repeat' split
    all_goals simpa using h
  | resetDatapath =>
    simpa [State.resetDatapath, State.resetDrain, State.resetCapture, State.refreshEscalated, State.refreshBusy] using h
  | drainBudgetExpiry =>
    unfold State.expireBudget
    split <;> simpa [State.refreshEscalated] using h
  | _ => simpa using h

end Sys2Proof.Machine

/-! PROOFS. The counts of writes in passage and the hold records (R15, R84): every step at the ports keeps them those of the
heads; and with them the order of the queues. -/

namespace Sys2Proof.Machine

/-! ## The head of a port before and after a step -/

section
variable {s t : State} {p : Port}

theorem State.head_of_port (h : t.port p = s.port p) : t.head p = s.head p := by
  unfold State.head State.firstRequest
  rw [h]

theorem State.passageWindow_of_head (h : t.head p = s.head p) : t.passageWindow p = s.passageWindow p := by
  unfold State.passageWindow
  rw [h]

theorem State.headHeld_of_head (h : t.head p = s.head p) : t.headHeld p = s.headHeld p := by
  unfold State.headHeld
  rw [h]

theorem State.head_of_queue {pre post : List QueuedRequest} {x : QueuedRequest} (hq : (s.port p).queue = pre ++ x :: post)
    (hx : x.progress.isHead = true) (hpre : ∀ y ∈ pre, y.progress.isHead = false) : s.head p = some x := by
  unfold State.head State.firstRequest
  rw [hq]
  exact find_of_split hx hpre

theorem State.head_none_of_queue {pre post : List QueuedRequest} {x : QueuedRequest}
    (hq : (s.port p).queue = pre ++ x :: post) (hx : x.progress.isHead = false)
    (hpre : ∀ y ∈ pre, y.progress.isHead = false) (hpost : ∀ y ∈ post, y.progress.isHead = false) : s.head p = none := by
  rw [State.noHead_iff, hq]
  intro y hy
  rcases List.mem_append.mp hy with hy | hy
  · exact hpre y hy
  · rcases List.mem_cons.mp hy with rfl | hy
    · exact hx
    · exact hpost y hy

theorem Progress.isHead_of_behind {x : Progress} (h : x.isBehind = true) : x.isHead = false := by
  cases x with
  | behind => rfl
  | head | onM | answered => exact absurd h Bool.false_ne_true

/-- A request that becomes the head where there was none. -/
theorem PortMove.head_entered {r : QueuedRequest} {new : Progress} (hn : s.head p = none)
    (move : PortMove Progress.isBehind r new (s.port p) (t.port p)) :
    t.head p = if new.isHead = true then some { r with progress := new } else none := by
  obtain ⟨pre, post, hq, hq', -⟩ := move.split
  have none := (s.noHead_iff p).mp hn
  rw [hq] at none
  have hpre : ∀ y ∈ pre, y.progress.isHead = false := fun y hy => none y (List.mem_append_left _ hy)
  split
  · rename_i h
    exact State.head_of_queue hq' h hpre
  · rename_i h
    exact State.head_none_of_queue hq' (by simpa using h) hpre
      fun y hy => none y (List.mem_append_right _ (List.mem_cons_of_mem _ hy))

/-- The head of a port goes on. -/
theorem PortMove.head_moved {test : Progress → Bool} {r : QueuedRequest} {new : Progress} (hl : s.Loose)
    (hr : r.progress.isHead = true) (move : PortMove test r new (s.port p) (t.port p)) :
    s.head p = some r ∧ t.head p = if new.isHead = true then some { r with progress := new } else none := by
  obtain ⟨pre, post, hq, hq', -⟩ := move.split
  have order := hl p
  rw [hq] at order
  obtain ⟨before, after⟩ := looseQueue_head order hr
  have hpre : ∀ y ∈ pre, y.progress.isHead = false := fun y hy => (Bool.or_eq_false_iff.mp (before y hy)).2
  refine ⟨State.head_of_queue hq hr hpre, ?_⟩
  split
  · rename_i h
    exact State.head_of_queue hq' h hpre
  · rename_i h
    exact State.head_none_of_queue hq' (by simpa using h) hpre fun y hy => Progress.isHead_of_behind (after y hy)

/-- A request ON_M that is answered is no head. -/
theorem PortMove.head_answered {r : BusRequest} {cls : Classification} {a : Answer}
    (move : PortMove Progress.isOnM ⟨r, .onM cls⟩ (.answered a) (s.port p) (t.port p)) : t.head p = s.head p := by
  obtain ⟨pre, post, hq, hq', -⟩ := move.split
  unfold State.head State.firstRequest
  rw [hq, hq']
  simp [List.find?_append, Progress.isHead]

end

/-! ## The counts of writes in passage (R84) -/

/-- The heads that are in passage of a window. -/
def State.inPassage (s : State) (w : WindowId) : Nat :=
  ([Port.a, Port.b].filter fun p => decide (s.passageWindow p = some w)).length

theorem State.inPassage_eq (s : State) (w : WindowId) : s.inPassage w =
    (if s.passageWindow .a = some w then 1 else 0) + if s.passageWindow .b = some w then 1 else 0 := by
  unfold State.inPassage
  by_cases a : s.passageWindow .a = some w <;> by_cases b : s.passageWindow .b = some w <;> simp [a, b]

/-- One port's head changes what it is in passage of. -/
theorem State.inPassage_change {s t : State} {p : Port} (others : ∀ q, q ≠ p → t.passageWindow q = s.passageWindow q)
    (w : WindowId) : t.inPassage w + (if s.passageWindow p = some w then 1 else 0) =
      s.inPassage w + if t.passageWindow p = some w then 1 else 0 := by
  rw [State.inPassage_eq, State.inPassage_eq]
  cases p with
  | a => rw [others .b (by decide)]; omega
  | b => rw [others .a (by decide)]; omega

theorem State.headsAgree_iff (s : State) : s.headsAgree ↔ (∀ w, (s.window w).passage = s.inPassage w) ∧
    (s.holds.map (·.port)).Nodup ∧ ∀ p, s.headHeld p = true ↔ p ∈ s.holds.map (·.port) := Iff.rfl

/-- Nothing of the heads, the counts and the hold records changes. -/
theorem State.headsAgree_of_same {s t : State} (head : ∀ p, t.passageWindow p = s.passageWindow p)
    (held : ∀ p, t.headHeld p = s.headHeld p) (hw : ∀ w, (t.window w).passage = (s.window w).passage)
    (hh : t.holds = s.holds) (h : s.headsAgree) : t.headsAgree := by
  obtain ⟨count, nodup, records⟩ := (s.headsAgree_iff).mp h
  refine (t.headsAgree_iff).mpr ⟨fun w => ?_, by rw [hh]; exact nodup, fun p => by rw [held, hh]; exact records p⟩
  rw [hw, count, State.inPassage_eq, State.inPassage_eq, head, head]

theorem State.passageWindow_head {s : State} {p : Port} {r : BusRequest} {cls : Classification} {place : HeadPlace}
    (h : s.head p = some ⟨r, .head cls place⟩) :
    s.passageWindow p = if place = .waiting then none else cls.window := by
  unfold State.passageWindow
  rw [h]
  cases place <;> simp

theorem State.passageWindow_none {s : State} {p : Port} (h : s.head p = none) : s.passageWindow p = none := by
  unfold State.passageWindow
  rw [h]

theorem State.headHeld_head {s : State} {p : Port} {r : BusRequest} {cls : Classification} {place : HeadPlace}
    (h : s.head p = some ⟨r, .head cls place⟩) : s.headHeld p = decide (place = .held) := by
  unfold State.headHeld
  rw [h]
  cases place <;> rfl

theorem State.headHeld_none {s : State} {p : Port} (h : s.head p = none) : s.headHeld p = false := by
  unfold State.headHeld
  rw [h]

theorem State.window_of_windows {s t : State} (h : t.windows = s.windows) (w : WindowId) : t.window w = s.window w := by
  simp [State.window, h]

/-- The head of one port changes what it is in passage of, and the counts with it; the hold records stay. -/
theorem State.headsAgree_of_count {s t : State} {p : Port} (others : ∀ q, q ≠ p → t.port q = s.port q)
    (count : ∀ w, (t.window w).passage + (if s.passageWindow p = some w then 1 else 0) =
      (s.window w).passage + if t.passageWindow p = some w then 1 else 0)
    (held : t.headHeld p = s.headHeld p) (hh : t.holds = s.holds) (h : s.headsAgree) : t.headsAgree := by
  obtain ⟨before, nodup, records⟩ := (s.headsAgree_iff).mp h
  refine (t.headsAgree_iff).mpr ⟨fun w => ?_, by rw [hh]; exact nodup, fun q => ?_⟩
  · have change := State.inPassage_change (s := s) (t := t) (p := p)
      (fun q hq => State.passageWindow_of_head (State.head_of_port (others q hq))) w
    have now := count w
    rw [before w] at now
    omega
  · rw [hh]
    by_cases e : q = p
    · subst e
      rw [held]
      exact records q
    · rw [State.headHeld_of_head (State.head_of_port (others q e))]
      exact records q

/-- One write in passage fewer at the window of an answered head. -/
theorem State.passage_fewer {s t : State} {o : Option WindowId} {w : WindowId}
    (hw : t.windows = (s.passage o (· - 1)).windows) (enough : o = some w → 1 ≤ (s.window w).passage) :
    (t.window w).passage + (if o = some w then 1 else 0) = (s.window w).passage := by
  rw [State.window_of_windows hw, State.passage_window]
  split
  · rename_i e
    have := enough e
    dsimp only
    omega
  · rfl

theorem State.passage_more {s t : State} {o : Option WindowId} {w : WindowId}
    (hw : t.windows = (s.passage o (· + 1)).windows) :
    (t.window w).passage = (s.window w).passage + if o = some w then 1 else 0 := by
  rw [State.window_of_windows hw, State.passage_window]
  split <;> rfl

theorem mem_filter_ports {holds : List Hold} {p q : Port} :
    q ∈ (holds.filter fun h => decide (h.port ≠ p)).map (·.port) ↔ q ≠ p ∧ q ∈ holds.map (·.port) := by
  simp only [List.mem_map, List.mem_filter, decide_eq_true_eq]
  constructor
  · rintro ⟨x, ⟨mem, ne⟩, rfl⟩
    exact ⟨ne, x, mem, rfl⟩
  · rintro ⟨ne, x, mem, rfl⟩
    exact ⟨x, ⟨mem, ne⟩, rfl⟩

theorem nodup_filter_ports {holds : List Hold} (h : (holds.map (·.port)).Nodup) (p : Port) :
    ((holds.filter fun h => decide (h.port ≠ p)).map (·.port)).Nodup :=
  h.sublist ((List.filter_sublist (p := fun h : Hold => decide (h.port ≠ p))).map _)

/-- A step at the ports keeps the counts of writes in passage and the hold records those of the heads. -/
theorem HeadStep.keeps_heads {s t : State} (step : HeadStep s t) (hl : s.Loose) (h : s.headsAgree) : t.headsAgree := by
  obtain ⟨count, nodup, records⟩ := (s.headsAgree_iff).mp h
  cases step with
  | elsewhere hA hB hw hh =>
    have head : ∀ p, t.head p = s.head p := fun p => State.head_of_port (State.port_of_ports hA hB p)
    exact State.headsAgree_of_same (fun p => State.passageWindow_of_head (head p)) (fun p => State.headHeld_of_head (head p))
      (fun w => by rw [State.window_of_windows hw]) hh h
  | enter p r cls new hn hp ho hh hw =>
    have head := PortMove.head_entered hn hp
    rcases hw with ⟨kind, hw⟩ | ⟨rfl, hw⟩
    · have same : t.passageWindow p = none ∧ t.headHeld p = false := by
        rcases kind with rfl | ⟨a, rfl⟩
        · replace head := head.trans (if_pos rfl)
          exact ⟨State.passageWindow_head head, State.headHeld_head head⟩
        · replace head := head.trans (if_neg Bool.false_ne_true)
          exact ⟨State.passageWindow_none head, State.headHeld_none head⟩
      refine State.headsAgree_of_count ho (fun w => ?_) (same.2.trans (State.headHeld_none hn).symm) hh h
      rw [same.1, State.passageWindow_none hn, State.window_of_windows hw]
    · replace head := head.trans (if_pos rfl)
      refine State.headsAgree_of_count ho (fun w => ?_)
        ((State.headHeld_head head).trans (State.headHeld_none hn).symm) hh h
      rw [State.passageWindow_head head, State.passageWindow_none hn, State.passage_more hw]
      simp
  | answer p r cls place a hp ho hw hh =>
    obtain ⟨before, after⟩ := PortMove.head_moved hl rfl hp
    replace after := after.trans (if_neg Bool.false_ne_true)
    have passing : s.passageWindow p = cls.window := by
      rw [State.passageWindow_head before]
      rcases hh with ⟨⟨b, rfl⟩, -⟩ | ⟨rfl, -⟩ <;> rfl
    have counted : ∀ w, (t.window w).passage + (if s.passageWindow p = some w then 1 else 0) =
        (s.window w).passage + if t.passageWindow p = some w then 1 else 0 := fun w => by
      rw [passing, State.passageWindow_none after]
      refine State.passage_fewer hw fun e => ?_
      rw [count w, State.inPassage_eq, ← e, ← passing]
      cases p <;> simp
    rcases hh with ⟨⟨b, rfl⟩, hh⟩ | ⟨rfl, hh⟩
    · exact State.headsAgree_of_count ho counted
        ((State.headHeld_none after).trans (State.headHeld_head before).symm) hh h
    · refine (t.headsAgree_iff).mpr ⟨fun w => ?_, by rw [hh]; exact nodup_filter_ports nodup p, fun q => ?_⟩
      · have change := State.inPassage_change (s := s) (t := t) (p := p)
          (fun q hq => State.passageWindow_of_head (State.head_of_port (ho q hq))) w
        have now := counted w
        rw [count w] at now
        omega
      · rw [hh, mem_filter_ports]
        by_cases e : q = p
        · subst e
          simp [State.headHeld_none after]
        · rw [State.headHeld_of_head (State.head_of_port (ho q e)), records q]
          simp [e]
  | hold x r cls b hp ho hw hh =>
    obtain ⟨before, after⟩ := PortMove.head_moved hl rfl hp
    replace after := after.trans (if_pos rfl)
    have free : x.port ∉ s.holds.map (·.port) := fun mem => by
      have held := (records x.port).mpr mem
      rw [State.headHeld_head before] at held
      exact absurd (of_decide_eq_true held) nofun
    refine (t.headsAgree_iff).mpr ⟨fun w => ?_, ?_, fun q => ?_⟩
    · rw [State.window_of_windows hw, count w, State.inPassage_eq, State.inPassage_eq]
      have same : ∀ q, t.passageWindow q = s.passageWindow q := fun q => by
        by_cases e : q = x.port
        · subst e
          rw [State.passageWindow_head after, State.passageWindow_head before]
          rfl
        · exact State.passageWindow_of_head (State.head_of_port (ho q e))
      rw [same, same]
    · rw [hh, List.map_append]
      exact nodup.append (List.nodup_singleton _) (by simpa using free)
    · rw [hh]
      by_cases e : q = x.port
      · subst e
        simp [State.headHeld_head after]
      · rw [State.headHeld_of_head (State.head_of_port (ho q e)), records q]
        simp [e]
  | send p r cls hp ho hw hh =>
    obtain ⟨before, after⟩ := PortMove.head_moved hl rfl hp
    replace after := after.trans (if_neg Bool.false_ne_true)
    refine State.headsAgree_of_count ho (fun w => ?_) ((State.headHeld_none after).trans (State.headHeld_head before).symm)
      hh h
    rw [State.passageWindow_head before, State.passageWindow_none after, State.window_of_windows hw]
    rfl
  | respond p r cls a hp ho hw hh =>
    have head : ∀ q, t.head q = s.head q := fun q => by
      by_cases e : q = p
      · subst e
        exact hp.head_answered
      · exact State.head_of_port (ho q e)
    exact State.headsAgree_of_same (fun q => State.passageWindow_of_head (head q)) (fun q => State.headHeld_of_head (head q))
      (fun w => by rw [State.window_of_windows hw]) hh h
  | mark =>
    have head : ∀ p, s.markPassages.head p = (s.head p).map QueuedRequest.markPassage := fun p => by
      unfold State.head State.firstRequest
      rw [State.markPassages_port, List.find?_map]
      refine congrArg (Option.map _) (congrArg (fun f => List.find? f (s.port p).queue) (funext fun x => ?_))
      exact x.markPassage_test Progress.isHead fun _ _ _ => rfl
    have marked : ∀ p, s.markPassages.passageWindow p = s.passageWindow p ∧ s.markPassages.headHeld p = s.headHeld p :=
      fun p => by
        unfold State.passageWindow State.headHeld
        rw [head]
        cases s.head p with
        | none => exact ⟨rfl, rfl⟩
        | some x =>
          obtain ⟨r, progress⟩ := x
          cases progress with
          | head cls place => cases place <;> exact ⟨rfl, rfl⟩
          | behind | onM | answered => exact ⟨rfl, rfl⟩
    exact State.headsAgree_of_same (fun p => (marked p).1) (fun p => (marked p).2) (fun _ => rfl) rfl h
  | orphan p hn =>
    have none : ∀ x ∈ s.holds, x.port ≠ p := fun x mem e => by
      have held := (records p).mpr (List.mem_map.mpr ⟨x, mem, e⟩)
      rw [hn] at held
      exact Bool.false_ne_true held
    have same : s.dropHold p = s := by
      unfold State.dropHold
      rw [List.filter_eq_self.mpr fun x mem => by simpa using none x mem]
      rfl
    rw [same]
    exact h

theorem HeadSteps.keeps_heads {s t : State} (steps : HeadSteps s t) (hl : s.Loose) (h : s.headsAgree) : t.headsAgree := by
  induction steps with
  | refl => exact h
  | tail before step ih => exact step.keeps_heads (HeadSteps.keeps_loose before hl) ih

end Sys2Proof.Machine

/-! PROOFS. Requests accepted and responses taken, and the order, depth, counts and hold records over every step. -/

namespace Sys2Proof.Machine

/-- One port replaced. -/
theorem State.withPort_port (s : State) (p q : Port) (x : PortState) :
    (s.withPort p x).port q = if q = p then x else s.port q := by
  by_cases e : q = p
  · subst e
    rw [State.port_withPort_same, if_pos rfl]
  · rw [State.port_withPort_ne _ (Ne.symm e), if_neg e]

theorem State.Loose.withPort {s : State} {p : Port} {x : PortState} (h : s.Loose) (hx : looseQueue x.queue) :
    (s.withPort p x).Loose := fun q => by
  rw [State.withPort_port]
  split
  · exact hx
  · exact h q

/-- A port replaced by one with the same head. -/
theorem State.headsAgree_withPort {s : State} {p : Port} {x : PortState} (h : s.headsAgree)
    (hx : x.queue.find? (fun r => r.progress.isHead) = s.head p) : (s.withPort p x).headsAgree := by
  have head : ∀ q, (s.withPort p x).head q = s.head q := fun q => by
    by_cases e : q = p
    · subst e
      unfold State.head State.firstRequest
      rw [State.withPort_port, if_pos rfl]
      exact hx
    · exact State.head_of_port (by rw [State.withPort_port, if_neg e])
  exact State.headsAgree_of_same (fun q => State.passageWindow_of_head (head q)) (fun q => State.headHeld_of_head (head q))
    (fun w => by rw [State.window_of_windows (s := s) (by simp)]) (by simp) h

/-! ## A request accepted (R101, R102) -/

theorem looseQueue_append {q : List QueuedRequest} (h : looseQueue q) (r : BusRequest) :
    looseQueue (q ++ [⟨r, .behind⟩]) := by
  unfold looseQueue at h ⊢
  rw [List.pairwise_append]
  refine ⟨h, List.pairwise_singleton _ _, fun x _ y hy => .inr ?_⟩
  rw [List.mem_singleton.mp hy]
  rfl

/-- The port of an accepted request. -/
def PortState.accepting (r : BusRequest) (x : PortState) : PortState :=
  { x with queue := x.queue ++ [⟨r, .behind⟩], counts := { x.counts with requests := x.counts.requests + 1 } }

theorem State.acceptRequest_eq (s : State) (p : Port) (r : BusRequest) :
    s.acceptRequest p r = (s.withPort p ((s.port p).accepting r)).moveOn p := rfl

section
variable {s : State} (p : Port) (r : BusRequest)

theorem State.acceptRequest_loose (h : s.Loose) : (s.acceptRequest p r).Loose := by
  rw [State.acceptRequest_eq]
  exact (State.moveOn_steps _ p).keeps_loose (h.withPort (looseQueue_append (h p) r))

theorem State.acceptRequest_heads (hl : s.Loose) (h : s.headsAgree) : (s.acceptRequest p r).headsAgree := by
  rw [State.acceptRequest_eq]
  refine (State.moveOn_steps _ p).keeps_heads (hl.withPort (looseQueue_append (hl p) r)) (State.headsAgree_withPort h ?_)
  unfold State.head State.firstRequest PortState.accepting
  simp [List.find?_append, Progress.isHead]

theorem State.acceptRequest_depth (s : State) (q : Port) :
    ((s.acceptRequest p r).port q).queue.length = (s.port q).queue.length + (if q = p then 1 else 0) ∧
      ((s.acceptRequest p r).port q).waiting = (s.port q).waiting := by
  rw [State.acceptRequest_eq]
  obtain ⟨len, wait⟩ := (State.moveOn_steps (s.withPort p ((s.port p).accepting r)) p).depth q
  rw [len, wait, State.withPort_port]
  split
  · rename_i e
    subst e
    exact ⟨by simp [PortState.accepting], rfl⟩
  · exact ⟨rfl, rfl⟩

end

/-! ## A response taken (R107) -/

/-- The state of a response taken, before a waiting request is accepted. -/
def State.taken (p : Port) (s : State) : State := s.withPort p { s.port p with queue := (s.port p).queue.tail }

theorem State.takeResponse_cases (s : State) (p : Port) : s.takeResponse p = s ∨
    ∃ r a rest, (s.port p).queue = ⟨r, .answered a⟩ :: rest ∧ s.takeResponse p = (s.taken p).acceptWaiting p := by
  unfold State.takeResponse
  split
  · rename_i hd
    obtain ⟨r, rest, hq⟩ := State.delivered_some hd
    exact .inr ⟨r, _, rest, hq, rfl⟩
  · exact .inl rfl

theorem State.acceptWaiting_cases (s : State) (p : Port) : s.acceptWaiting p = s ∧
      ((s.port p).waiting = [] ∨ 4 ≤ (s.port p).queue.length) ∨
    ∃ r rest, (s.port p).waiting = r :: rest ∧ (s.port p).queue.length < 4 ∧
      s.acceptWaiting p = (s.withPort p { s.port p with waiting := rest }).acceptRequest p r := by
  unfold State.acceptWaiting
  split
  · rename_i hw
    exact .inl ⟨rfl, .inl hw⟩
  · rename_i r rest hw
    split
    · rename_i room
      exact .inr ⟨r, rest, hw, room, rfl⟩
    · rename_i full
      exact .inl ⟨rfl, .inr (Nat.le_of_not_lt full)⟩

section
variable {s : State} (p : Port)

theorem State.acceptWaiting_loose (h : s.Loose) : (s.acceptWaiting p).Loose := by
  rcases s.acceptWaiting_cases p with ⟨e, -⟩ | ⟨r, rest, -, -, e⟩
  · rw [e]
    exact h
  · rw [e]
    exact State.acceptRequest_loose p r (h.withPort (h p))

theorem State.acceptWaiting_heads (hl : s.Loose) (h : s.headsAgree) : (s.acceptWaiting p).headsAgree := by
  rcases s.acceptWaiting_cases p with ⟨e, -⟩ | ⟨r, rest, -, -, e⟩
  · rw [e]
    exact h
  · rw [e]
    exact State.acceptRequest_heads p r (hl.withPort (hl p)) (State.headsAgree_withPort h rfl)

theorem State.taken_loose (h : s.Loose) : (s.taken p).Loose :=
  h.withPort ((h p).sublist (List.tail_sublist _))

theorem State.taken_heads {r : BusRequest} {a : Answer} {rest : List QueuedRequest}
    (hq : (s.port p).queue = ⟨r, .answered a⟩ :: rest) (h : s.headsAgree) : (s.taken p).headsAgree := by
  refine State.headsAgree_withPort h ?_
  unfold State.head State.firstRequest
  rw [hq]
  rfl

end

/-! ## Every row -/

theorem Effect.keeps_loose {c : Instr} {s t : State} (e : Effect s c t) (h : s.Loose) : t.Loose := by
  rcases e.headSteps with steps | ⟨p, r, -, rfl⟩ | ⟨p, -, rfl⟩ | k
  · exact steps.keeps_loose h
  · unfold State.presentRequest
    split
    · exact State.acceptRequest_loose p r h
    · exact h.withPort (h p)
  · rcases s.takeResponse_cases p with same | ⟨r, a, rest, hq, eq⟩
    · rw [same]
      exact h
    · rw [eq]
      exact State.acceptWaiting_loose p (State.taken_loose p h)
  · obtain ⟨w, x, rfl, -⟩ := k.eq_withWindow
    exact fun p => by rw [State.withWindow_port]; exact h p

theorem Effect.keeps_heads {c : Instr} {s t : State} (e : Effect s c t) (hl : s.Loose) (h : s.headsAgree) :
    t.headsAgree := by
  rcases e.headSteps with steps | ⟨p, r, -, rfl⟩ | ⟨p, -, rfl⟩ | k
  · exact steps.keeps_heads hl h
  · unfold State.presentRequest
    split
    · exact State.acceptRequest_heads p r hl h
    · exact State.headsAgree_withPort h rfl
  · rcases s.takeResponse_cases p with same | ⟨r, a, rest, hq, eq⟩
    · rw [same]
      exact h
    · rw [eq]
      exact State.acceptWaiting_heads p (State.taken_loose p hl) (State.taken_heads p hq h)
  · obtain ⟨w, x, rfl, hx⟩ := k.eq_withWindow
    have head : ∀ p, (s.withWindow w x).head p = s.head p := fun p => State.head_of_port (s.withWindow_port w x p)
    refine State.headsAgree_of_same (fun p => State.passageWindow_of_head (head p)) (fun p => State.headHeld_of_head (head p))
      (fun v => ?_) (by simp) h
    by_cases same : w = v
    · subst same
      rw [State.window_withWindow_same, hx]
    · rw [State.window_withWindow_ne _ same]

/-- At most four requests of a port outstanding, and one waits on the bus only while four are (R101). -/
def PortState.Deep (x : PortState) : Prop := x.queue.length ≤ 4 ∧ (x.waiting ≠ [] → x.queue.length = 4)

theorem PortState.ordered_iff (x : PortState) : x.ordered ↔ (looseQueue x.queue ∧ ledQueue x.queue) ∧ x.Deep := by
  unfold PortState.ordered
  rw [queueOrdered_iff]
  rfl

theorem State.presentRequest_cases (s : State) (p : Port) (r : BusRequest) :
    (s.port p).waiting = [] ∧ (s.port p).queue.length < 4 ∧ s.presentRequest p r = s.acceptRequest p r ∨
    ((s.port p).waiting = [] → 4 ≤ (s.port p).queue.length) ∧
      s.presentRequest p r = s.withPort p { s.port p with waiting := (s.port p).waiting ++ [r] } := by
  by_cases h : (s.port p).waiting = [] ∧ (s.port p).queue.length < 4
  · refine .inl ⟨h.1, h.2, if_pos ?_⟩
    rw [h.1]
    exact decide_eq_true h.2
  · refine .inr ⟨fun w => Nat.le_of_not_lt fun room => h ⟨w, room⟩, if_neg fun k => h ?_⟩
    obtain ⟨w, room⟩ := Bool.and_eq_true_iff.mp k
    exact ⟨List.isEmpty_iff.mp w, of_decide_eq_true room⟩

theorem State.presentRequest_deep {s : State} (p : Port) (r : BusRequest) (h : ∀ q, (s.port q).Deep) (q : Port) :
    ((s.presentRequest p r).port q).Deep := by
  obtain ⟨len, wait⟩ := h q
  rcases s.presentRequest_cases p r with ⟨none, room, e⟩ | ⟨full, e⟩
  · rw [e]
    obtain ⟨len', wait'⟩ := State.acceptRequest_depth p r s q
    unfold PortState.Deep
    rw [len', wait']
    by_cases e : q = p
    · subst e
      rw [if_pos rfl]
      exact ⟨room, fun w => absurd none w⟩
    · rw [if_neg e]
      exact ⟨len, wait⟩
  · rw [e, State.withPort_port]
    split
    · rename_i e
      subst e
      refine ⟨len, fun _ => ?_⟩
      by_cases w : (s.port q).waiting = []
      · exact Nat.le_antisymm len (full w)
      · exact wait w
    · exact ⟨len, wait⟩

theorem State.takeResponse_deep {s : State} (p : Port) (h : ∀ q, (s.port q).Deep) (q : Port) :
    ((s.takeResponse p).port q).Deep := by
  rcases s.takeResponse_cases p with same | ⟨r, a, rest, hq, eq⟩
  · rw [same]
    exact h q
  · obtain ⟨len, wait⟩ := h p
    rw [hq, List.length_cons] at len wait
    have port : (s.taken p).port p = { s.port p with queue := rest } := by
      unfold State.taken
      rw [State.port_withPort_same, hq]
      rfl
    have other : q ≠ p → (s.taken p).port q = s.port q := fun e => by
      unfold State.taken
      rw [State.withPort_port, if_neg e]
    rw [eq]
    rcases (s.taken p).acceptWaiting_cases p with ⟨e, room⟩ | ⟨r', left, hw, room, e⟩
    · rw [e]
      by_cases k : q = p
      · subst k
        rw [port] at room ⊢
        refine ⟨Nat.le_of_succ_le len, fun w => ?_⟩
        rcases room with none | full
        · exact absurd none w
        · dsimp only at full
          omega
      · rw [other k]
        exact h q
    · rw [e]
      obtain ⟨len', wait'⟩ := State.acceptRequest_depth p r'
        ((s.taken p).withPort p { (s.taken p).port p with waiting := left }) q
      unfold PortState.Deep
      rw [len', wait', State.withPort_port]
      by_cases k : q = p
      · subst k
        rw [if_pos rfl, if_pos rfl, port]
        rw [port] at hw
        have four := wait (by rw [show (s.port q).waiting = r' :: left from hw]; exact List.cons_ne_nil _ _)
        exact ⟨len, fun _ => four⟩
      · rw [if_neg k, if_neg k, other k]
        exact h q

theorem Effect.keeps_deep {c : Instr} {s t : State} (e : Effect s c t) (h : ∀ p, (s.port p).Deep) (p : Port) :
    (t.port p).Deep := by
  rcases e.headSteps with steps | ⟨q, r, -, rfl⟩ | ⟨q, -, rfl⟩ | k
  · obtain ⟨len, wait⟩ := steps.depth p
    unfold PortState.Deep
    rw [len, wait]
    exact h p
  · exact State.presentRequest_deep q r h p
  · exact State.takeResponse_deep q h p
  · obtain ⟨w, x, rfl, -⟩ := k.eq_withWindow
    rw [State.withWindow_port]
    exact h p

/-- Both ports in order and port M within its limit, port by port. -/
theorem State.portsOrdered_iff (s : State) : s.portsOrdered ↔
    s.Loose ∧ (∀ p, s.Led p) ∧ (∀ p, (s.port p).Deep) ∧ s.arb.outstanding.length ≤ 4 := by
  unfold State.portsOrdered
  rw [PortState.ordered_iff, PortState.ordered_iff]
  constructor
  · rintro ⟨⟨⟨a1, a2⟩, a3⟩, ⟨⟨b1, b2⟩, b3⟩, m⟩
    exact ⟨fun p => by cases p <;> assumption, fun p => by cases p <;> assumption, fun p => by cases p <;> assumption, m⟩
  · rintro ⟨h1, h2, h3, m⟩
    exact ⟨⟨⟨h1 .a, h2 .a⟩, h3 .a⟩, ⟨⟨h1 .b, h2 .b⟩, h3 .b⟩, m⟩

theorem Effect.keeps_ordered {c : Instr} {s t : State} (e : Effect s c t) (h : s.portsOrdered) : t.portsOrdered := by
  rw [State.portsOrdered_iff] at h ⊢
  obtain ⟨loose, led, deep, memory⟩ := h
  exact ⟨e.keeps_loose loose, fun p => e.keeps_led (led p), e.keeps_deep deep, e.keeps_memory memory⟩

theorem State.reset_portsOrdered : State.reset.portsOrdered := by
  refine ⟨?_, ?_, Nat.zero_le _⟩ <;> exact ⟨rfl, Nat.zero_le _, fun h => absurd rfl h⟩

theorem State.reset_headsAgree : State.reset.headsAgree := by
  refine ⟨fun w => ?_, List.nodup_nil, fun p => ?_⟩
  · rw [State.reset_window]
    rfl
  · cases p <;> decide

/-- Settles O59: the order of the queues, their depth, the counts and the hold records are kept by every change. -/
theorem queuesStayInOrder : Obligations.QueuesStayInOrder := by
  intro s t ordered h
  refine ⟨?_, fun heads => ?_⟩
  · refine step_keeps State.portsOrdered (fun _ _ hu => hu) (fun _ _ _ => State.reset_portsOrdered) (fun u v hu hc => ?_)
      s t ordered h
    obtain ⟨c, e⟩ | ⟨m, x, d, e, rfl⟩ := hc.effect
    · exact e.keeps_ordered hu
    · exact hu
  · refine (step_keeps (fun u => u.portsOrdered ∧ u.headsAgree) (fun _ _ hu => hu)
      (fun _ _ _ => ⟨State.reset_portsOrdered, State.reset_headsAgree⟩) (fun u v hu hc => ?_) s t ⟨ordered, heads⟩ h).2
    obtain ⟨ho, hh⟩ := hu
    obtain ⟨c, e⟩ | ⟨m, x, d, e, rfl⟩ := hc.effect
    · exact ⟨e.keeps_ordered ho, e.keeps_heads ((State.portsOrdered_iff u).mp ho).1 hh⟩
    · exact ⟨ho, hh⟩

end Sys2Proof.Machine

/-! PROOFS. The agreement of pool, lists, drain queue and port M on the staged data, part by part (R1, R3, R5, R20, R50, R51,
R61). -/

namespace Sys2Proof.Machine

/-! ## The parts -/

/-- What the lists and the queue say of an entry: its group, its state and its generation. -/
abbrev Mark := GroupId × EntryState × Generation

def Entry.mark (e : Entry) : Mark := (e.group, e.state, e.gen)

def Stage.mark (x : Stage) (i : PoolIndex) : Option Mark := (x.entry i).map Entry.mark

/-- An entry stands in a state. -/
def marked (st : EntryState) (mark : PoolIndex → Option Mark) (i : PoolIndex) : Bool :=
  (mark i).any fun m => decide (m.2.1 = st)

theorem marked_iff {st : EntryState} {mark : PoolIndex → Option Mark} {i : PoolIndex} :
    marked st mark i = true ↔ ∃ g gen, mark i = some (g, st, gen) := by
  unfold marked
  cases mark i with
  | none => simp
  | some m =>
    obtain ⟨g, st', gen⟩ := m
    simp [eq_comm]

theorem Stage.entryIs_eq (x : Stage) (st : EntryState) : x.entryIs st = marked st x.mark := by
  funext i
  unfold Stage.entryIs marked Stage.mark
  cases x.entry i <;> rfl

/-- The lists hold exactly the entries: an open list the STAGED ones of its group, a draining list those handed over. -/
structure ListsOk (mark : PoolIndex → Option Mark) (openList drainList : GroupId → List PoolIndex)
    (sequence : GroupId → BitVec 16) : Prop where
  nodup : ∀ g, (openList g ++ drainList g).Nodup
  opened : ∀ {g i}, i ∈ openList g ↔ mark i = some (g, .staged, .collecting)
  drained : ∀ {g i}, i ∈ drainList g ↔ mark i = some (g, .queued, .draining (sequence g)) ∨
    mark i = some (g, .writing, .draining (sequence g))
  listed : ∀ {i g st gen}, mark i = some (g, st, gen) → i ∈ openList g ∨ i ∈ drainList g

/-- The drain writes on port M are the WRITING entries. -/
structure WritesOk (mark : PoolIndex → Option Mark) (drainList : GroupId → List PoolIndex)
    (writes : List (GroupId × PoolIndex)) : Prop where
  nodup : writes.Nodup
  mem : ∀ {g i}, (g, i) ∈ writes ↔ i ∈ drainList g ∧ marked .writing mark i = true

/-- Each record of the drain queue is that of its group's draining list, and every draining list has its record or its
leftover writes. -/
structure QueueOk (mark : PoolIndex → Option Mark) (drainList : GroupId → List PoolIndex)
    (sequence : GroupId → BitVec 16) (queue : List DrainStage) (leftovers : List (GroupId × PoolIndex)) : Prop where
  groups : (queue.map (·.group)).Nodup
  record : ∀ d ∈ queue, drainList d.group ≠ [] ∧ d.sequence = sequence d.group ∧
    d.next = (drainList d.group).find? (marked .queued mark)
  covered : ∀ g i, i ∈ drainList g → g ∈ queue.map (·.group) ∨ (g, i) ∈ leftovers

/-- The fence between generations. -/
structure FenceOk (queue : List DrainStage) (leftovers writes : List (GroupId × PoolIndex)) : Prop where
  tail : ∀ d ∈ queue.tail, d.phase = .waiting ∧ d.outstanding = 0
  leftover : leftovers ≠ [] → writes = leftovers ∧
    ∀ d ∈ queue, d.phase = .waiting ∧ d.outstanding = 0 ∧ d.group ∉ leftovers.map (·.1)
  idle : leftovers = [] → queue = [] → writes = []
  head : leftovers = [] → ∀ d rest, queue = d :: rest → d.phase = (if d.next.isSome then .issuing else .closing) ∧
    d.outstanding = writes.length ∧ ∀ w ∈ writes, w.1 = d.group

/-- The staged data agree in all their places. -/
structure Stage.Agrees (x : Stage) : Prop where
  lists : ListsOk x.mark x.openList x.drainList x.sequence
  writes : WritesOk x.mark x.drainList x.writes
  queue : QueueOk x.mark x.drainList x.sequence x.queue x.leftovers
  fence : FenceOk x.queue x.leftovers x.writes

/-! ## The same as the agreement of a state -/

theorem State.entryIs_stage (s : State) (st : EntryState) : s.entryIs st = marked st s.stage.mark :=
  s.stage.entryIs_eq st

theorem State.mark_stage {s : State} {i : PoolIndex} {m : Mark} :
    s.stage.mark i = some m ↔ ∃ e, s.entry i = some e ∧ e.group = m.1 ∧ e.state = m.2.1 ∧ e.gen = m.2.2 := by
  obtain ⟨g, st, gen⟩ := m
  unfold Stage.mark
  rw [Option.map_eq_some_iff]
  refine exists_congr fun e => and_congr_right fun _ => ?_
  simp [Entry.mark]

theorem State.listsAgree_iff (s : State) :
    s.listsAgree ↔ ListsOk s.stage.mark s.stage.openList s.stage.drainList s.stage.sequence := by
  constructor
  · intro h
    have gen : ∀ {i : PoolIndex} {e : Entry}, s.entry i = some e →
        e.gen = if e.state = .staged then .collecting else .draining (s.group e.group).sequence :=
      fun he => (h _).2.2.2 _ _ he rfl
    refine ⟨fun g => (h g).1, fun {g i} => ?_, fun {g i} => ?_, fun {i g st gn} hm => ?_⟩
    · refine ((h g).2.1 i).trans ?_
      rw [State.mark_stage]
      refine exists_congr fun e => and_congr_right fun he => ?_
      refine ⟨fun ⟨hg, hs⟩ => ⟨hg, hs, (gen he).trans (if_pos hs)⟩, fun ⟨hg, hs, _⟩ => ⟨hg, hs⟩⟩
    · refine ((h g).2.2.1 i).trans ?_
      rw [State.mark_stage, State.mark_stage]
      constructor
      · rintro ⟨e, he, rfl, hs⟩
        have hgen := (gen he).trans (if_neg hs)
        cases hst : e.state with
        | staged => exact absurd hst hs
        | queued => exact .inl ⟨e, he, rfl, hst, hgen⟩
        | writing => exact .inr ⟨e, he, rfl, hst, hgen⟩
      · rintro (⟨e, he, hg, hs, -⟩ | ⟨e, he, hg, hs, -⟩)
        · exact ⟨e, he, hg, by rw [hs]; exact EntryState.noConfusion⟩
        · exact ⟨e, he, hg, by rw [hs]; exact EntryState.noConfusion⟩
    · obtain ⟨e, he, hg, hs, -⟩ := State.mark_stage.mp hm
      by_cases staged : e.state = .staged
      · exact .inl (((h g).2.1 i).mpr ⟨e, he, hg, staged⟩)
      · exact .inr (((h g).2.2.1 i).mpr ⟨e, he, hg, staged⟩)
  · intro h g
    have listed : ∀ {i : PoolIndex} {e : Entry}, s.entry i = some e → e.group = g →
        s.stage.mark i = some (g, .staged, .collecting) ∨
          s.stage.mark i = some (g, .queued, .draining (s.group g).sequence) ∨
          s.stage.mark i = some (g, .writing, .draining (s.group g).sequence) := fun {i e} he hg => by
      rcases h.listed (State.mark_stage.mpr ⟨e, he, hg, rfl, rfl⟩) with k | k
      · exact .inl (h.opened.mp k)
      · exact .inr (h.drained.mp k)
    have same : ∀ {i : PoolIndex} {e : Entry} {m : Mark}, s.entry i = some e → s.stage.mark i = some m →
        e.group = m.1 ∧ e.state = m.2.1 ∧ e.gen = m.2.2 := fun {i e m} he hm => by
      obtain ⟨e', he', k⟩ := State.mark_stage.mp hm
      rw [he] at he'
      cases he'
      exact k
    refine ⟨h.nodup g, fun i => ⟨fun mem => ?_, fun ⟨e, he, hg, hs⟩ => ?_⟩, fun i => ⟨fun mem => ?_, fun ⟨e, he, hg, hs⟩ => ?_⟩,
      fun i e he hg => ?_⟩
    · obtain ⟨e, he, hg, hs, -⟩ := State.mark_stage.mp (h.opened.mp mem)
      exact ⟨e, he, hg, hs⟩
    · rcases listed he hg with k | k | k
      · exact h.opened.mpr k
      · exact absurd (hs.symm.trans (same he k).2.1) EntryState.noConfusion
      · exact absurd (hs.symm.trans (same he k).2.1) EntryState.noConfusion
    · rcases h.drained.mp mem with k | k
      · obtain ⟨e, he, hg, hs, -⟩ := State.mark_stage.mp k
        exact ⟨e, he, hg, by rw [hs]; exact EntryState.noConfusion⟩
      · obtain ⟨e, he, hg, hs, -⟩ := State.mark_stage.mp k
        exact ⟨e, he, hg, by rw [hs]; exact EntryState.noConfusion⟩
    · rcases listed he hg with k | k | k
      · exact absurd (same he k).2.1 hs
      · exact h.drained.mpr (.inl k)
      · exact h.drained.mpr (.inr k)
    · rcases listed he hg with k | k | k
      · obtain ⟨-, hs, hgen⟩ := same he k
        exact hgen.trans (if_pos hs).symm
      · obtain ⟨-, hs, hgen⟩ := same he k
        exact hgen.trans (if_neg (by rw [hs]; exact EntryState.noConfusion)).symm
      · obtain ⟨-, hs, hgen⟩ := same he k
        exact hgen.trans (if_neg (by rw [hs]; exact EntryState.noConfusion)).symm

theorem State.writesAgree_iff (s : State) : s.writesAgree ↔ WritesOk s.stage.mark s.stage.drainList s.stage.writes := by
  unfold State.writesAgree
  rw [State.entryIs_stage]
  exact ⟨fun ⟨h1, h2⟩ => ⟨h1, h2 _ _⟩, fun ⟨h1, h2⟩ => ⟨h1, fun _ _ => h2⟩⟩

theorem State.fenced_iff (s : State) : s.fenced ↔ FenceOk s.stage.queue s.stage.leftovers s.stage.writes := by
  have queue : s.stage.queue = s.drain.queue.map Drain.stage := rfl
  unfold State.fenced
  constructor
  · rintro ⟨tail, leftover, head⟩
    refine ⟨?_, fun hl => ?_, fun hl hq => ?_, fun hl d rest hq => ?_⟩
    · rw [queue, ← List.map_tail]
      intro d hd
      obtain ⟨d', hd', rfl⟩ := List.mem_map.mp hd
      exact tail d' hd'
    · obtain ⟨eq, all⟩ := leftover hl
      refine ⟨eq, fun d hd => ?_⟩
      obtain ⟨d', hd', rfl⟩ := List.mem_map.mp hd
      exact all d' hd'
    · have now := head hl
      rw [List.map_eq_nil_iff.mp hq] at now
      exact now
    · have now := head hl
      obtain ⟨d', rest', hq', rfl, -⟩ := List.map_eq_cons_iff.mp hq
      rw [hq'] at now
      exact now
  · rintro ⟨tail, leftover, idle, head⟩
    refine ⟨fun d hd => ?_, fun hl => ?_, fun hl => ?_⟩
    · refine tail d.stage ?_
      rw [queue, ← List.map_tail]
      exact List.mem_map_of_mem hd
    · obtain ⟨eq, all⟩ := leftover hl
      exact ⟨eq, fun d hd => all d.stage (List.mem_map_of_mem hd)⟩
    · split
      · rename_i hq
        exact idle hl (by rw [queue, hq]; rfl)
      · rename_i d rest hq
        exact head hl d.stage (rest.map Drain.stage) (by rw [queue, hq]; rfl)

theorem State.stagedDataAgree_iff (s : State) : s.stagedDataAgree ↔ s.stage.Agrees := by
  have groups : s.stage.queue.map (·.group) = s.drain.queue.map (·.group) := by
    simp [State.stage, Drain.stage]
  have first : ∀ l, s.firstQueued l = l.find? (marked .queued s.stage.mark) := fun l => by
    unfold State.firstQueued
    rw [State.entryIs_stage]
  unfold State.stagedDataAgree
  rw [State.listsAgree_iff, State.writesAgree_iff, State.fenced_iff, ← groups]
  constructor
  · rintro ⟨lists, writes, nodup, records, fence, covered⟩
    refine ⟨lists, writes, ⟨nodup, fun d hd => ?_, covered⟩, fence⟩
    obtain ⟨d', hd', rfl⟩ := List.mem_map.mp hd
    obtain ⟨h1, h2, h3⟩ := records d' hd'
    exact ⟨h1, h2, h3.trans (first _)⟩
  · rintro ⟨lists, writes, ⟨nodup, records, covered⟩, fence⟩
    refine ⟨lists, writes, nodup, fun d hd => ?_, fence, covered⟩
    obtain ⟨h1, h2, h3⟩ := records d.stage (List.mem_map_of_mem hd)
    exact ⟨h1, h2, h3.trans (first _).symm⟩

end Sys2Proof.Machine

/-! PROOFS. Every step keeps the staged data in agreement. -/

namespace Sys2Proof.Machine

open Function (update)

/-! ## Reading the lists -/

section
variable {mark : PoolIndex → Option Mark} {ol dl : GroupId → List PoolIndex} {seq : GroupId → BitVec 16}
  (L : ListsOk mark ol dl seq) {g k : GroupId} {i : PoolIndex}
include L

theorem ListsOk.open_group (h : i ∈ ol g) (h' : i ∈ ol k) : g = k := by
  have e := (L.opened.mp h).symm.trans (L.opened.mp h')
  injection e with e
  injection e

theorem ListsOk.disjoint (h : i ∈ ol g) : i ∉ dl k := fun h' => by
  have e := L.opened.mp h
  rcases L.drained.mp h' with e' | e' <;> (rw [e] at e'; cases e')

theorem ListsOk.mark_of_drained (h : i ∈ dl g) : ∃ st gen, mark i = some (g, st, gen) := by
  rcases L.drained.mp h with e | e
  · exact ⟨_, _, e⟩
  · exact ⟨_, _, e⟩

theorem ListsOk.drain_group (h : i ∈ dl g) (h' : i ∈ dl k) : g = k := by
  obtain ⟨st, gen, e⟩ := L.mark_of_drained h
  obtain ⟨st', gen', e'⟩ := L.mark_of_drained h'
  rw [e] at e'
  cases e'
  rfl

theorem ListsOk.drain_nodup (g : GroupId) : (dl g).Nodup := (L.nodup g).of_append_right

/-- An entry without a mark stands in no list. -/
theorem ListsOk.unlisted (h : mark i = none) : i ∉ ol g ∧ i ∉ dl g := by
  refine ⟨fun m => ?_, fun m => ?_⟩
  · have e := L.opened.mp m
    rw [h] at e
    cases e
  · rcases L.drained.mp m with e | e <;> (rw [h] at e; cases e)

/-- A marked entry stands in the list its mark says. -/
theorem ListsOk.not_mem_of_mark {m : Mark} (h : mark i = some m) (hg : m.1 ≠ g) : i ∉ ol g ∧ i ∉ dl g := by
  refine ⟨fun mem => ?_, fun mem => ?_⟩
  · have e := L.opened.mp mem
    rw [h] at e
    cases e
    exact hg rfl
  · rcases L.drained.mp mem with e | e <;> (rw [h] at e; cases e; exact hg rfl)

/-- An entry of a draining list is QUEUED unless it is WRITING. -/
theorem ListsOk.queued_of_drained (h : i ∈ dl g) (hw : marked .writing mark i = false) : marked .queued mark i = true := by
  rcases L.drained.mp h with e | e
  · exact marked_iff.mpr ⟨_, _, e⟩
  · rw [marked_iff.mpr ⟨_, _, e⟩] at hw
    cases hw

end

/-! ## Parts that see the same -/

section
variable {mark mark' : PoolIndex → Option Mark} {dl : GroupId → List PoolIndex} {seq : GroupId → BitVec 16}
  {writes left : List (GroupId × PoolIndex)} {queue : List DrainStage}

theorem WritesOk.congr (h : WritesOk mark dl writes) (e : marked .writing mark' = marked .writing mark) :
    WritesOk mark' dl writes := ⟨h.nodup, by rw [e]; exact h.mem⟩

theorem QueueOk.congr (h : QueueOk mark dl seq queue left) (e : marked .queued mark' = marked .queued mark) :
    QueueOk mark' dl seq queue left := ⟨h.groups, by rw [e]; exact h.record, h.covered⟩

end

theorem Stage.mark_update (x : Stage) (i : PoolIndex) (e : Entry) :
    Stage.mark { x with entry := update x.entry i (some e) } = update x.mark i (some e.mark) := by
  funext j
  unfold Stage.mark
  by_cases h : j = i
  · subst h; simp
  · simp [h]

theorem marked_update {st : EntryState} (mark : PoolIndex → Option Mark) (i j : PoolIndex) (m : Option Mark) :
    marked st (update mark i m) j = if j = i then m.any (fun m => decide (m.2.1 = st)) else marked st mark j := by
  unfold marked
  by_cases h : j = i
  · subst h; simp
  · simp [h]

/-! ## Placements (R4, R8, R9) -/

section
variable {x : Stage} (h : x.Agrees)
include h

theorem Stage.Agrees.merge {i : PoolIndex} {e : Entry} (p : Port) (m : LaneSet) (d : Lanes) (he : x.entry i = some e) :
    Stage.Agrees { x with entry := update x.entry i (some (e.mergeWrite p m d)) } := by
  have same : Stage.mark { x with entry := update x.entry i (some (e.mergeWrite p m d)) } = x.mark := by
    rw [Stage.mark_update]
    refine Function.update_eq_self_iff.mpr ?_
    unfold Stage.mark
    rw [he]
    rfl
  obtain ⟨lists, writes, queue, fence⟩ := h
  exact ⟨by rw [same]; exact lists, by rw [same]; exact writes, by rw [same]; exact queue, fence⟩

theorem Stage.Agrees.allocate {i : PoolIndex} (p : Port) (g : GroupId) (w : WordIndex) (m : LaneSet) (d : Lanes)
    (free : x.entry i = none) : Stage.Agrees { x with
      entry := update x.entry i (some (Entry.allocate p g w m d))
      openList := update x.openList g (x.openList g ++ [i])
      allocated := update x.allocated g (x.allocated g + 1) } := by
  obtain ⟨lists, writes, queue, fence⟩ := h
  have unmarked : x.mark i = none := by
    unfold Stage.mark
    rw [free]
    rfl
  have mark : Stage.mark { x with
      entry := update x.entry i (some (Entry.allocate p g w m d))
      openList := update x.openList g (x.openList g ++ [i])
      allocated := update x.allocated g (x.allocated g + 1) } = update x.mark i (some (g, .staged, .collecting)) :=
    x.mark_update i (Entry.allocate p g w m d)
  have others : ∀ st, st ≠ .staged → marked st (update x.mark i (some (g, .staged, .collecting))) = marked st x.mark :=
    fun st hst => funext fun j => by
      rw [marked_update]
      split
      · rename_i e
        subst e
        unfold marked
        rw [unmarked]
        exact decide_eq_false (Ne.symm hst)
      · rfl
  refine ⟨?_, by rw [mark]; exact writes.congr (others _ (by decide)), by rw [mark]; exact queue.congr (others _ (by decide)),
    fence⟩
  rw [mark]
  have out : ∀ {k}, i ∉ x.openList k ∧ i ∉ x.drainList k := lists.unlisted unmarked
  have openList : ∀ {k j}, j ∈ update x.openList g (x.openList g ++ [i]) k ↔ j ∈ x.openList k ∨ k = g ∧ j = i :=
    fun {k j} => by
      by_cases e : k = g
      · subst e; simp
      · simp [e]
  refine ⟨fun k => ?_, fun {k j} => ?_, fun {k j} => ?_, fun {j k st gen} hm => ?_⟩
  · by_cases e : k = g
    · subst e
      simp only [Function.update_self, List.append_assoc, List.singleton_append]
      refine List.nodup_middle.mpr (List.nodup_cons.mpr ⟨fun mem => ?_, lists.nodup k⟩)
      rcases List.mem_append.mp mem with mem | mem
      · exact out.1 mem
      · exact out.2 mem
    · simp only [Function.update_of_ne e]
      exact lists.nodup k
  · rw [openList]
    by_cases e : j = i
    · subst e
      simp [out.1, eq_comm]
    · simp [e, lists.opened]
  · by_cases e : j = i
    · subst e
      simp [out.2]
    · simp only [Function.update_of_ne e]
      exact lists.drained
  · rw [openList]
    by_cases e : j = i
    · subst e
      rw [Function.update_self] at hm
      cases hm
      exact .inl (.inr ⟨rfl, rfl⟩)
    · rw [Function.update_of_ne e] at hm
      exact (lists.listed hm).imp_left .inl

/-! ## Commits (R19, R35, R36) -/

/-- A group with no draining generation has no record and no leftover write. -/
theorem Stage.Agrees.unqueued {g : GroupId} (hd : x.drainList g = []) :
    (∀ d ∈ x.queue, d.group ≠ g) ∧ ∀ i, (g, i) ∉ x.writes := by
  refine ⟨fun d hmem e => (h.queue.record d hmem).1 (by rw [e]; exact hd), fun i hmem => ?_⟩
  have mem := (h.writes.mem.mp hmem).1
  rw [hd] at mem
  cases mem

theorem Stage.Agrees.emptyCommit {g : GroupId} (ho : x.openList g = []) (hd : x.drainList g = []) :
    Stage.Agrees { x with sequence := update x.sequence g (x.sequence g + 1) } := by
  obtain ⟨no, -⟩ := h.unqueued hd
  obtain ⟨lists, writes, queue, fence⟩ := h
  refine ⟨⟨lists.nodup, lists.opened, fun {k j} => ?_, lists.listed⟩, writes, ⟨queue.groups, fun d hmem => ?_, queue.covered⟩,
    fence⟩
  · by_cases e : k = g
    · subst e
      have out : ∀ {st gen}, x.mark j ≠ some (k, st, gen) := fun hm => by
        rcases lists.listed hm with mem | mem
        · rw [ho] at mem
          cases mem
        · rw [hd] at mem
          cases mem
      refine iff_of_false (by simp [hd]) ?_
      rintro (hm | hm)
      · exact out hm
      · exact out hm
    · simp only [Function.update_of_ne e]
      exact lists.drained
  · obtain ⟨h1, h2, h3⟩ := queue.record d hmem
    exact ⟨h1, by simp only [Function.update_of_ne (no d hmem)]; exact h2, h3⟩

end

/-- What a commit makes of the marks: the open entries QUEUED under the next sequence number. -/
def commitMark (mark : PoolIndex → Option Mark) (list : List PoolIndex) (g : GroupId) (n : BitVec 16) (j : PoolIndex) :
    Option Mark := if j ∈ list then some (g, .queued, .draining n) else mark j

theorem Stage.mark_commit {x y : Stage} (L : ListsOk x.mark x.openList x.drainList x.sequence) (g : GroupId)
    (h : y.entry = fun i => if i ∈ x.openList g
      then (x.entry i).map fun e => { e with state := .queued, gen := .draining (x.sequence g + 1) } else x.entry i) :
    y.mark = commitMark x.mark (x.openList g) g (x.sequence g + 1) := by
  funext j
  unfold commitMark
  rw [Stage.mark, h]
  dsimp only
  split
  · rename_i mem
    have e := L.opened.mp mem
    unfold Stage.mark at e
    obtain ⟨entry, he, hm⟩ := Option.map_eq_some_iff.mp e
    injection hm with hg
    rw [he, ← hg]
    rfl
  · rfl

/-- A commit's marks, on their own: pool and lists after it. -/
theorem ListsOk.commit {mark : PoolIndex → Option Mark} {ol dl : GroupId → List PoolIndex} {seq : GroupId → BitVec 16}
    (lists : ListsOk mark ol dl seq) {g : GroupId} (hd : dl g = []) :
    ListsOk (commitMark mark (ol g) g (seq g + 1)) (update ol g []) (update dl g (ol g))
      (update seq g (seq g + 1)) := by
  unfold commitMark
  have stays : ∀ {k j}, k ≠ g → j ∈ ol k ∨ j ∈ dl k → j ∉ ol g := fun {k j} ne mem mem' => by
    rcases mem with mem | mem
    · exact ne (lists.open_group mem mem')
    · exact lists.disjoint mem' mem
  refine ⟨fun k => ?_, fun {k j} => ?_, fun {k j} => ?_, fun {j k st gen} hm => ?_⟩
  · by_cases e : k = g
    · subst e
      simpa [hd] using lists.nodup k
    · simp only [Function.update_of_ne e]
      exact lists.nodup k
  · by_cases mem : j ∈ ol g
    · rw [if_pos mem]
      refine iff_of_false (fun mem' => ?_) (fun e => by cases e)
      by_cases e : k = g
      · subst e
        rw [Function.update_self] at mem'
        cases mem'
      · rw [Function.update_of_ne e] at mem'
        exact e (lists.open_group mem' mem)
    · rw [if_neg mem]
      by_cases e : k = g
      · subst e
        rw [Function.update_self]
        exact iff_of_false List.not_mem_nil fun hm => mem (lists.opened.mpr hm)
      · rw [Function.update_of_ne e]
        exact lists.opened
  · by_cases mem : j ∈ ol g
    · rw [if_pos mem]
      by_cases e : k = g
      · subst e
        simp [mem]
      · simp only [Function.update_of_ne e]
        refine iff_of_false (lists.disjoint mem) ?_
        rintro (hm | hm) <;> exact e (congrArg Prod.fst (Option.some.inj hm)).symm
    · rw [if_neg mem]
      by_cases e : k = g
      · subst e
        simp only [Function.update_self]
        refine iff_of_false mem ?_
        have out : ∀ {st gen}, st ≠ .staged → mark j ≠ some (k, st, gen) := fun hst hm => by
          rcases lists.listed hm with mem' | mem'
          · exact mem mem'
          · rw [hd] at mem'
            cases mem'
        rintro (hm | hm)
        · exact out (by decide) hm
        · exact out (by decide) hm
      · simp only [Function.update_of_ne e]
        exact lists.drained
  · by_cases mem : j ∈ ol g
    · rw [if_pos mem] at hm
      cases hm
      exact .inr (by rw [Function.update_self]; exact mem)
    · rw [if_neg mem] at hm
      by_cases e : k = g
      · subst e
        rcases lists.listed hm with mem' | mem'
        · exact absurd mem' mem
        · rw [hd] at mem'
          cases mem'
      · simp only [Function.update_of_ne e]
        exact lists.listed hm

/-- The first of a nonempty list whose entries all pass. -/
theorem find_of_all {l : List PoolIndex} {f : PoolIndex → Bool} (h : ∀ j ∈ l, f j = true) : l.find? f = l.head? := by
  cases l with
  | nil => rfl
  | cons j l => exact List.find?_cons_of_pos (h j List.mem_cons_self)

theorem find_congr {l : List PoolIndex} {f f' : PoolIndex → Bool} (h : ∀ j ∈ l, f' j = f j) : l.find? f' = l.find? f := by
  induction l with
  | nil => rfl
  | cons j l ih =>
    rw [List.find?_cons, List.find?_cons, h j List.mem_cons_self, ih fun k hk => h k (List.mem_cons_of_mem _ hk)]

/-- The record of a commit event. -/
def committedRecord (g : GroupId) (n : BitVec 16) (first : Bool) (list : List PoolIndex) : DrainStage :=
  ⟨g, n, if first then .issuing else .waiting, list.head?, 0⟩

section
variable {mark : PoolIndex → Option Mark} {ol dl : GroupId → List PoolIndex} {seq : GroupId → BitVec 16}
  {writes left : List (GroupId × PoolIndex)} {queue : List DrainStage} (lists : ListsOk mark ol dl seq) {g : GroupId}

include lists in
/-- A commit leaves the states of the other draining lists. -/
theorem marked_commitMark {st : EntryState} {n : BitVec 16} {k : GroupId} {j : PoolIndex} (mem : j ∈ dl k) :
    marked st (commitMark mark (ol g) g n) j = marked st mark j := by
  unfold marked commitMark
  rw [if_neg fun mem' => lists.disjoint mem' mem]

theorem marked_commitMark_inside {st : EntryState} {n : BitVec 16} {list : List PoolIndex} {j : PoolIndex}
    (mem : j ∈ list) : marked st (commitMark mark list g n) j = decide (EntryState.queued = st) := by
  unfold marked commitMark
  rw [if_pos mem]
  rfl

include lists in
theorem WritesOk.commit (h : WritesOk mark dl writes) (unwritten : ∀ i, (g, i) ∉ writes) (n : BitVec 16) :
    WritesOk (commitMark mark (ol g) g n) (update dl g (ol g)) writes := by
  refine ⟨h.nodup, fun {k j} => ?_⟩
  by_cases e : k = g
  · subst e
    rw [Function.update_self]
    refine iff_of_false (unwritten j) ?_
    rintro ⟨mem, w⟩
    rw [marked_commitMark_inside mem] at w
    cases w
  · rw [Function.update_of_ne e]
    refine h.mem.trans (and_congr_right fun mem => ?_)
    rw [marked_commitMark lists mem]

include lists in
theorem QueueOk.commit (h : QueueOk mark dl seq queue left) (no : ∀ d ∈ queue, d.group ≠ g) (ho : ol g ≠ [])
    (first : Bool) : QueueOk (commitMark mark (ol g) g (seq g + 1)) (update dl g (ol g)) (update seq g (seq g + 1))
      (queue ++ [committedRecord g (seq g + 1) first (ol g)]) left := by
  refine ⟨?_, fun d hmem => ?_, fun k j mem => ?_⟩
  · rw [List.map_append]
    refine h.groups.append (List.nodup_singleton _) ?_
    simp only [List.map_cons, List.map_nil, List.disjoint_singleton, List.mem_map, not_exists, not_and]
    exact no
  · rcases List.mem_append.mp hmem with hmem | hmem
    · obtain ⟨h1, h2, h3⟩ := h.record d hmem
      have ne := no d hmem
      rw [Function.update_of_ne ne, Function.update_of_ne ne]
      exact ⟨h1, h2, h3.trans (find_congr fun j mem => marked_commitMark lists mem).symm⟩
    · rw [List.mem_singleton.mp hmem]
      unfold committedRecord
      rw [Function.update_self, Function.update_self]
      exact ⟨ho, rfl, (find_of_all fun j mem => marked_commitMark_inside mem).symm⟩
  · rw [List.map_append]
    by_cases e : k = g
    · subst e
      exact .inl (List.mem_append_right _ List.mem_cons_self)
    · rw [Function.update_of_ne e] at mem
      exact (h.covered k j mem).imp_left (List.mem_append_left _)

theorem FenceOk.commit (h : FenceOk queue left writes) (unwritten : ∀ i, (g, i) ∉ writes) {list : List PoolIndex}
    (ho : list ≠ []) (n : BitVec 16) :
    FenceOk (queue ++ [committedRecord g n (queue.isEmpty && left.isEmpty) list]) left writes := by
  refine ⟨fun d hmem => ?_, fun hl => ?_, fun hl hq => ?_, fun hl d rest hq => ?_⟩
  · cases queue with
    | nil => cases hmem
    | cons d' rest =>
      rcases List.mem_append.mp hmem with hmem | hmem
      · exact h.tail d hmem
      · rw [List.mem_singleton.mp hmem]
        exact ⟨rfl, rfl⟩
  · obtain ⟨e, all⟩ := h.leftover hl
    refine ⟨e, fun d hmem => ?_⟩
    rcases List.mem_append.mp hmem with hmem | hmem
    · exact all d hmem
    · rw [List.mem_singleton.mp hmem]
      refine ⟨if_neg (by simp [hl]), rfl, fun mem => ?_⟩
      obtain ⟨⟨k, j⟩, mem', rfl⟩ := List.mem_map.mp mem
      exact unwritten j (by rw [e]; exact mem')
  · exact absurd hq (by simp)
  · cases queue with
    | nil =>
      injection hq with hd hr
      rw [← hd, h.idle hl rfl, hl]
      obtain ⟨i, l, rfl⟩ := List.exists_cons_of_ne_nil ho
      exact ⟨rfl, rfl, fun w hw => by cases hw⟩
    | cons d' rest' =>
      injection hq with hd hr
      subst hd
      exact h.head hl d' rest' rfl

end

theorem Stage.Agrees.commit {x : Stage} (h : x.Agrees) {g : GroupId} (ho : x.openList g ≠ [])
    (hd : x.drainList g = []) : Stage.Agrees { x with
      entry := fun i => if i ∈ x.openList g
        then (x.entry i).map fun e => { e with state := .queued, gen := .draining (x.sequence g + 1) } else x.entry i
      openList := update x.openList g []
      drainList := update x.drainList g (x.openList g)
      sequence := update x.sequence g (x.sequence g + 1)
      queue := x.queue ++ [⟨g, x.sequence g + 1,
        if x.queue.isEmpty && x.leftovers.isEmpty then .issuing else .waiting, (x.openList g).head?, 0⟩] } := by
  obtain ⟨no, unwritten⟩ := h.unqueued hd
  obtain ⟨lists, writes, queue, fence⟩ := h
  refine ⟨?_, ?_, ?_, fence.commit unwritten ho _⟩
  · rw [Stage.mark_commit lists g rfl]
    exact lists.commit hd
  · rw [Stage.mark_commit lists g rfl]
    exact writes.commit lists unwritten _
  · rw [Stage.mark_commit lists g rfl]
    exact queue.commit lists no ho _

end Sys2Proof.Machine

/-! PROOFS. Aborts, issues, acknowledgements and RESET_DATAPATH keep the staged data in agreement. -/

namespace Sys2Proof.Machine

open Function (update)

section
variable {mark : PoolIndex → Option Mark} {ol dl : GroupId → List PoolIndex} {seq : GroupId → BitVec 16}
  {writes left : List (GroupId × PoolIndex)} {queue : List DrainStage} (lists : ListsOk mark ol dl seq) {g : GroupId}

/-! ## An abort (R22, R43) -/

/-- What an abort makes of the marks: the open entries freed. -/
def abortMark (mark : PoolIndex → Option Mark) (list : List PoolIndex) (j : PoolIndex) : Option Mark :=
  if j ∈ list then none else mark j

include lists in
theorem ListsOk.abort (g : GroupId) : ListsOk (abortMark mark (ol g)) (update ol g []) dl seq := by
  unfold abortMark
  refine ⟨fun k => ?_, fun {k j} => ?_, fun {k j} => ?_, fun {j k st gen} hm => ?_⟩
  · by_cases e : k = g
    · subst e
      simpa using lists.drain_nodup k
    · rw [Function.update_of_ne e]
      exact lists.nodup k
  · by_cases mem : j ∈ ol g
    · rw [if_pos mem]
      refine iff_of_false (fun mem' => ?_) nofun
      by_cases e : k = g
      · subst e
        rw [Function.update_self] at mem'
        cases mem'
      · rw [Function.update_of_ne e] at mem'
        exact e (lists.open_group mem' mem)
    · rw [if_neg mem]
      by_cases e : k = g
      · subst e
        rw [Function.update_self]
        exact iff_of_false List.not_mem_nil fun hm => mem (lists.opened.mpr hm)
      · rw [Function.update_of_ne e]
        exact lists.opened
  · by_cases mem : j ∈ ol g
    · rw [if_pos mem]
      exact iff_of_false (lists.disjoint mem) (by rintro (hm | hm) <;> cases hm)
    · rw [if_neg mem]
      exact lists.drained
  · by_cases mem : j ∈ ol g
    · rw [if_pos mem] at hm
      cases hm
    · rw [if_neg mem] at hm
      refine (lists.listed hm).imp_left fun mem' => ?_
      by_cases e : k = g
      · subst e
        exact absurd mem' mem
      · rw [Function.update_of_ne e]
        exact mem'

include lists in
/-- An abort frees STAGED entries only. -/
theorem marked_abortMark {st : EntryState} (hst : st ≠ .staged) (g : GroupId) :
    marked st (abortMark mark (ol g)) = marked st mark := by
  funext j
  unfold marked abortMark
  split
  · rename_i mem
    rw [lists.opened.mp mem]
    exact (decide_eq_false (Ne.symm hst)).symm
  · rfl

/-! ## An issue (R20, R52) -/

include lists in
/-- The entry issued stands QUEUED in its draining list. -/
theorem ListsOk.queued_mark {i : PoolIndex} (h : (dl g).find? (marked .queued mark) = some i) :
    i ∈ dl g ∧ mark i = some (g, .queued, .draining (seq g)) := by
  have mem := List.mem_of_find?_eq_some h
  refine ⟨mem, (lists.drained.mp mem).resolve_right fun e => ?_⟩
  have q := List.find?_some h
  rw [marked, e] at q
  cases q

include lists in
theorem ListsOk.issue {i : PoolIndex} (mem : i ∈ dl g) (hm : mark i = some (g, .queued, .draining (seq g))) :
    ListsOk (update mark i (some (g, .writing, .draining (seq g)))) ol dl seq := by
  refine ⟨lists.nodup, fun {k j} => ?_, fun {k j} => ?_, fun {j k st gen} hj => ?_⟩
  · by_cases e : j = i
    · subst e
      rw [Function.update_self]
      exact iff_of_false (fun mem' => lists.disjoint mem' mem) fun e => by cases e
    · rw [Function.update_of_ne e]
      exact lists.opened
  · by_cases e : j = i
    · subst e
      rw [Function.update_self]
      constructor
      · intro mem'
        have e := lists.drain_group mem mem'
        subst e
        exact .inr rfl
      · intro e
        have k : g = k := by rcases e with e | e <;> exact congrArg Prod.fst (Option.some.inj e)
        exact k ▸ mem
    · rw [Function.update_of_ne e]
      exact lists.drained
  · by_cases e : j = i
    · subst e
      rw [Function.update_self] at hj
      have k : g = k := congrArg Prod.fst (Option.some.inj hj)
      exact .inr (k ▸ mem)
    · rw [Function.update_of_ne e] at hj
      exact lists.listed hj

theorem WritesOk.issue (h : WritesOk mark dl writes) {i : PoolIndex} (mem : i ∈ dl g)
    (hm : mark i = some (g, .queued, .draining (seq g))) (unique : ∀ k, i ∈ dl k → k = g) :
    WritesOk (update mark i (some (g, .writing, .draining (seq g)))) dl (writes ++ [(g, i)]) := by
  have fresh : ∀ k, (k, i) ∉ writes := fun k w => by
    have writing := (h.mem.mp w).2
    rw [marked, hm] at writing
    cases writing
  refine ⟨h.nodup.append (List.nodup_singleton _) (by simpa using fresh g), fun {k j} => ?_⟩
  rw [marked_update, List.mem_append, List.mem_singleton]
  by_cases e : j = i
  · subst e
    rw [if_pos rfl]
    constructor
    · rintro (w | e)
      · exact absurd w (fresh k)
      · injection e with e
        subst e
        exact ⟨mem, rfl⟩
    · rintro ⟨mem', -⟩
      rw [unique k mem']
      exact .inr rfl
  · rw [if_neg e, ← h.mem]
    exact or_iff_left fun e' => e (congrArg Prod.snd e')

end

theorem Stage.Agrees.abort {x : Stage} (h : x.Agrees) (g : GroupId) : Stage.Agrees { x with
    entry := fun i => if i ∈ x.openList g then none else x.entry i
    openList := update x.openList g []
    gone := update x.gone g (x.gone g + BitVec.ofNat 32 (x.openList g).length) } := by
  obtain ⟨lists, writes, queue, fence⟩ := h
  have mark : ∀ y : Stage, (y.entry = fun i => if i ∈ x.openList g then none else x.entry i) →
      y.mark = abortMark x.mark (x.openList g) := fun y hy => funext fun j => by
    rw [Stage.mark, hy]
    unfold abortMark
    dsimp only
    split <;> rfl
  refine ⟨?_, ?_, ?_, fence⟩
  · rw [mark _ rfl]
    exact lists.abort g
  · rw [mark _ rfl]
    exact writes.congr (marked_abortMark lists (by decide) g)
  · rw [mark _ rfl]
    exact queue.congr (marked_abortMark lists (by decide) g)

theorem Stage.Agrees.issue {x : Stage} (h : x.Agrees) {d : DrainStage} {rest : List DrainStage} {i : PoolIndex} {e : Entry}
    (hq : x.queue = d :: rest) (hp : d.phase = .issuing) (hn : d.next = some i) (he : x.entry i = some e)
    {next : Option PoolIndex}
    (hnext : next = (x.drainList d.group).find? fun j => decide (j ≠ i) && x.entryIs .queued j) : Stage.Agrees { x with
      entry := update x.entry i (some { e with state := .writing })
      queue := { d with
        next := next, outstanding := d.outstanding + 1, phase := if next.isSome then .issuing else .closing } :: rest
      writes := x.writes ++ [(d.group, i)] } := by
  obtain ⟨lists, writes, queue, fence⟩ := h
  rw [hq] at queue fence
  obtain ⟨nonempty, sequence, first⟩ := queue.record d List.mem_cons_self
  obtain ⟨mem, hm⟩ := lists.queued_mark (first.symm.trans hn)
  have idle : x.leftovers = [] := by
    by_contra hl
    have waits := ((fence.leftover hl).2 d List.mem_cons_self).1
    rw [hp] at waits
    cases waits
  have mark : ∀ y : Stage, y.entry = update x.entry i (some { e with state := .writing }) →
      y.mark = update x.mark i (some (d.group, .writing, .draining (x.sequence d.group))) := fun y hy => by
    have old : x.mark i = some e.mark := by
      unfold Stage.mark
      rw [he]
      rfl
    rw [hm] at old
    have eq := x.mark_update i { e with state := .writing }
    have same : ({ e with state := .writing } : Entry).mark =
        (d.group, EntryState.writing, Generation.draining (x.sequence d.group)) := by
      have now := Option.some.inj old
      unfold Entry.mark at now ⊢
      rw [show e.group = d.group from (congrArg Prod.fst now).symm,
        show e.gen = .draining (x.sequence d.group) from (congrArg (·.2.2) now).symm]
    rw [same] at eq
    rw [← eq]
    funext j
    rw [Stage.mark, hy]
    rfl
  have apart : ∀ d' ∈ rest, d'.group ≠ d.group := fun d' mem' e => by
    have nodup := queue.groups
    rw [List.map_cons, List.nodup_cons] at nodup
    exact nodup.1 (List.mem_map.mpr ⟨d', mem', e⟩)
  obtain ⟨-, outstanding, owned⟩ := fence.head idle d rest rfl
  refine ⟨?_, ?_, ?_, ?_⟩
  · rw [mark _ rfl]
    exact lists.issue mem hm
  · rw [mark _ rfl]
    exact writes.issue mem hm fun k mem' => lists.drain_group mem' mem
  · rw [mark _ rfl]
    refine ⟨queue.groups, fun d' hmem => ?_, queue.covered⟩
    rcases List.mem_cons.mp hmem with rfl | inRest
    · refine ⟨nonempty, sequence, hnext.trans (find_congr fun j _ => ?_).symm⟩
      rw [marked_update, Stage.entryIs_eq]
      by_cases e : j = i
      · subst e
        simp
      · simp [e]
    · obtain ⟨h1, h2, h3⟩ := queue.record d' (List.mem_cons_of_mem _ inRest)
      refine ⟨h1, h2, h3.trans (find_congr fun j mem' => ?_).symm⟩
      rw [marked_update, if_neg]
      rintro rfl
      exact apart d' inRest (lists.drain_group mem' mem)
  · refine ⟨fence.tail, fun hl => absurd idle hl, fun _ hq => absurd hq (by simp), fun _ d' rest' hq' => ?_⟩
    injection hq' with hd hr
    subst hd
    refine ⟨rfl, ?_, fun w hw => ?_⟩
    · rw [List.length_append, ← outstanding]
      rfl
    · rcases List.mem_append.mp hw with hw | hw
      · exact owned w hw
      · rw [List.mem_singleton.mp hw]

end Sys2Proof.Machine

/-! PROOFS. Acknowledgements and RESET_DATAPATH keep the staged data in agreement (R21, R23, R48, R51, R54, R55, R61). -/

namespace Sys2Proof.Machine

open Function (update)

/-! ## A wake of the head generation (R51) -/

theorem wokenStages_groups (q : List DrainStage) : (wokenStages q).map (·.group) = q.map (·.group) := by
  cases q <;> rfl

section
variable {mark : PoolIndex → Option Mark} {ol dl : GroupId → List PoolIndex} {seq : GroupId → BitVec 16}
  {writes left : List (GroupId × PoolIndex)} {queue : List DrainStage}

theorem QueueOk.woken (h : QueueOk mark dl seq queue left) : QueueOk mark dl seq (wokenStages queue) left := by
  obtain ⟨groups, record, covered⟩ := h
  refine ⟨by rw [wokenStages_groups]; exact groups, ?_, by rw [wokenStages_groups]; exact covered⟩
  cases queue with
  | nil => exact record
  | cons d rest =>
    intro d' mem
    rcases List.mem_cons.mp mem with rfl | inRest
    · exact record d List.mem_cons_self
    · exact record d' (List.mem_cons_of_mem _ inRest)

/-- With nothing on port M and every generation waiting, the head may start. -/
theorem FenceOk.woken (lists : ListsOk mark ol dl seq) (hw : WritesOk mark dl []) (h : QueueOk mark dl seq queue [])
    (waits : ∀ d ∈ queue, d.phase = .waiting ∧ d.outstanding = 0) : FenceOk (wokenStages queue) [] [] := by
  refine ⟨?_, fun hl => absurd rfl hl, fun _ _ => rfl, ?_⟩
  · cases queue with
    | nil => exact nofun
    | cons d rest => exact fun d' mem => waits d' (List.mem_cons_of_mem _ mem)
  · rintro - d' rest' hq
    cases queue with
    | nil => cases hq
    | cons d rest =>
      obtain ⟨hd, -⟩ := List.cons.inj hq
      obtain ⟨nonempty, -, first⟩ := h.record d List.mem_cons_self
      obtain ⟨phase, outstanding⟩ := waits d List.mem_cons_self
      have queued : ∀ j ∈ dl d.group, marked .queued mark j = true := fun j mem =>
        lists.queued_of_drained mem (Bool.eq_false_iff.mpr fun w => List.not_mem_nil (hw.mem.mpr ⟨mem, w⟩))
      obtain ⟨j, l, hj⟩ := List.exists_cons_of_ne_nil nonempty
      have next : d.next = some j := by rw [first, find_of_all queued, hj]; rfl
      subst hd
      refine ⟨?_, outstanding, nofun⟩
      simp [next, phase]

/-! ## The acknowledged entry gone (R21) -/

/-- The draining lists without the acknowledged entry. -/
def settledList (dl : GroupId → List PoolIndex) (g : GroupId) (i : PoolIndex) : GroupId → List PoolIndex :=
  update dl g ((dl g).erase i)

variable (lists : ListsOk mark ol dl seq) {g : GroupId} {i : PoolIndex} (mem : i ∈ dl g)

include lists mem

theorem ListsOk.mem_settledList {k : GroupId} {j : PoolIndex} : j ∈ settledList dl g i k ↔ j ≠ i ∧ j ∈ dl k := by
  unfold settledList
  by_cases e : k = g
  · subst e
    rw [Function.update_self, (lists.drain_nodup k).mem_erase_iff]
  · rw [Function.update_of_ne e]
    refine (and_iff_right_of_imp fun mem' => ?_).symm
    rintro rfl
    exact e (lists.drain_group mem' mem)

theorem ListsOk.settle : ListsOk (update mark i none) ol (settledList dl g i) seq := by
  refine ⟨fun k => ?_, fun {k j} => ?_, fun {k j} => ?_, fun {j k st gen} hj => ?_⟩
  · refine (lists.nodup k).sublist (List.Sublist.append_left ?_ _)
    unfold settledList
    by_cases e : k = g
    · subst e
      rw [Function.update_self]
      exact List.erase_sublist
    · rw [Function.update_of_ne e]
  · by_cases e : j = i
    · subst e
      rw [Function.update_self]
      exact iff_of_false (fun mem' => lists.disjoint mem' mem) nofun
    · rw [Function.update_of_ne e]
      exact lists.opened
  · rw [lists.mem_settledList mem]
    by_cases e : j = i
    · subst e
      simp
    · rw [Function.update_of_ne e]
      exact (and_iff_right e).trans lists.drained
  · rw [lists.mem_settledList mem]
    by_cases e : j = i
    · subst e
      rw [Function.update_self] at hj
      cases hj
    · rw [Function.update_of_ne e] at hj
      exact (lists.listed hj).imp_right fun mem' => ⟨e, mem'⟩

theorem WritesOk.settle {more : List (GroupId × PoolIndex)} (h : WritesOk mark dl ((g, i) :: more)) :
    WritesOk (update mark i none) (settledList dl g i) more := by
  obtain ⟨fresh, nodup⟩ := List.nodup_cons.mp h.nodup
  refine ⟨nodup, fun {k j} => ?_⟩
  rw [lists.mem_settledList mem, marked_update]
  by_cases e : j = i
  · subst e
    refine iff_of_false (fun mem' => ?_) (fun k => k.1.1 rfl)
    have same := lists.drain_group (h.mem.mp (List.mem_cons_of_mem _ mem')).1 mem
    subst same
    exact fresh mem'
  · have old := h.mem (g := k) (i := j)
    rw [List.mem_cons, or_iff_right fun e' => e (congrArg Prod.snd e')] at old
    simp [old, e]

/-- The next QUEUED entry of a draining list is not the one acknowledged. -/
theorem ListsOk.find_settledList (hw : marked .queued mark i = false) (k : GroupId) :
    (settledList dl g i k).find? (marked .queued (update mark i none)) = (dl k).find? (marked .queued mark) := by
  unfold settledList
  by_cases e : k = g
  · subst e
    rw [Function.update_self, (lists.drain_nodup k).erase_eq_filter, List.find?_filter]
    refine find_congr fun j _ => ?_
    rw [marked_update]
    by_cases e : j = i
    · subst e
      simp [hw]
    · simp [e]
  · rw [Function.update_of_ne e]
    refine find_congr fun j mem' => ?_
    rw [marked_update, if_neg]
    rintro rfl
    exact e (lists.drain_group mem' mem)

/-- Records whose lists are not emptied agree still, and cover what is left. -/
theorem QueueOk.settle (h : QueueOk mark dl seq queue left) (hw : marked .queued mark i = false)
    (stays : ∀ d ∈ queue, settledList dl g i d.group ≠ []) {left' : List (GroupId × PoolIndex)}
    (hl : ∀ k j, j ≠ i → (k, j) ∈ left → (k, j) ∈ left') :
    QueueOk (update mark i none) (settledList dl g i) seq queue left' := by
  refine ⟨h.groups, fun d hd => ?_, fun k j mem' => ?_⟩
  · obtain ⟨-, sequence, first⟩ := h.record d hd
    exact ⟨stays d hd, sequence, first.trans (lists.find_settledList mem hw _).symm⟩
  · obtain ⟨ne, mem'⟩ := (lists.mem_settledList mem).mp mem'
    exact (h.covered k j mem').imp_right (hl k j ne)

omit lists mem in
/-- A list of another group keeps its entries. -/
theorem settledList_ne_nil (h : QueueOk mark dl seq queue left) {d : DrainStage} (hd : d ∈ queue) (ne : d.group ≠ g) :
    settledList dl g i d.group ≠ [] := by
  unfold settledList
  rw [Function.update_of_ne ne]
  exact (h.record d hd).1

end

theorem Stage.acknowledge_of_leftovers {x : Stage} (h : x.leftovers ≠ []) :
    x.acknowledge = Stage.wake { x with leftovers := x.leftovers.tail } :=
  if_neg (by simpa using h)

theorem Stage.acknowledge_of_head {x : Stage} (h : x.leftovers = []) {d : DrainStage} {rest : List DrainStage}
    (hq : x.queue = d :: rest) : x.acknowledge =
      if d.phase = .closing ∧ d.outstanding - 1 = 0 then Stage.wake { x with queue := rest }
      else { x with queue := { d with outstanding := d.outstanding - 1 } :: rest } := by
  unfold Stage.acknowledge
  rw [if_pos (by simpa using h), hq]

/-- The staged data without the acknowledged entry and its write. -/
def Stage.settled (x : Stage) (g : GroupId) (i : PoolIndex) (more : List (GroupId × PoolIndex)) : Stage :=
  { x with
    entry := update x.entry i none
    drainList := settledList x.drainList g i
    gone := update x.gone g (x.gone g + 1)
    writes := more }

theorem Stage.settle_eq {x : Stage} {g : GroupId} {i : PoolIndex} (mem : i ∈ x.drainList g)
    (more : List (GroupId × PoolIndex)) : Stage.settle g i { x with writes := more } = x.settled g i more := if_pos mem

theorem Stage.mark_settled (x : Stage) (g : GroupId) (i : PoolIndex) (more : List (GroupId × PoolIndex)) :
    (x.settled g i more).mark = update x.mark i none := by
  funext j
  unfold Stage.mark Stage.settled
  by_cases h : j = i
  · subst h
    simp
  · simp [h]

section
variable {x : Stage} (h : x.Agrees) {g : GroupId} {i : PoolIndex} {more : List (GroupId × PoolIndex)}
  (hw : x.writes = (g, i) :: more)
include h hw

/-- The write acknowledged is that of a WRITING entry of its group's draining list. -/
theorem Stage.Agrees.writing : i ∈ x.drainList g ∧ marked .queued x.mark i = false := by
  obtain ⟨mem, writing⟩ := h.writes.mem.mp (show (g, i) ∈ x.writes by rw [hw]; exact List.mem_cons_self)
  refine ⟨mem, ?_⟩
  obtain ⟨k, gen, e⟩ := marked_iff.mp writing
  unfold marked
  rw [e]
  rfl

/-- Pool, lists and writes agree without the acknowledged entry, and what drain queue and fence make of it is left. -/
theorem Stage.Agrees.settled {q : List DrainStage} {l : List (GroupId × PoolIndex)}
    (queue : QueueOk (update x.mark i none) (settledList x.drainList g i) x.sequence q l) (fence : FenceOk q l more) :
    Stage.Agrees { x.settled g i more with queue := q, leftovers := l } := by
  obtain ⟨mem, -⟩ := h.writing hw
  have mark : Stage.mark { x.settled g i more with queue := q, leftovers := l } = update x.mark i none :=
    x.mark_settled g i more
  refine ⟨?_, ?_, ?_, fence⟩
  · rw [mark]
    exact h.lists.settle mem
  · rw [mark]
    exact WritesOk.settle h.lists mem (hw ▸ h.writes)
  · rw [mark]
    exact queue

/-- The last write outstanding acknowledged, a waiting head wakes. -/
theorem Stage.Agrees.settled_woken (last : more = []) {q : List DrainStage}
    (queue : QueueOk (update x.mark i none) (settledList x.drainList g i) x.sequence q [])
    (waits : ∀ d ∈ q, d.phase = .waiting ∧ d.outstanding = 0) :
    (Stage.wake { x.settled g i more with queue := q, leftovers := [] }).Agrees := by
  obtain ⟨mem, -⟩ := h.writing hw
  have writes := WritesOk.settle h.lists mem (hw ▸ h.writes)
  rw [last] at writes
  rw [Stage.wake_eq rfl]
  refine h.settled hw queue.woken ?_
  rw [last]
  exact FenceOk.woken (h.lists.settle mem) writes queue waits

/-- An acknowledgement with writes left over from a RESET_DATAPATH is of the oldest of them. -/
theorem Stage.Agrees.acknowledge_leftover (hl : x.leftovers ≠ []) : (x.settled g i more).acknowledge.Agrees := by
  obtain ⟨mem, notQueued⟩ := h.writing hw
  obtain ⟨same, waits⟩ := h.fence.leftover hl
  have left : x.leftovers = (g, i) :: more := same.symm.trans hw
  rw [Stage.acknowledge_of_leftovers (by exact hl), show (x.settled g i more).leftovers = _ from left]
  have other : ∀ d ∈ x.queue, d.group ∉ ((g, i) :: more).map (·.1) := left ▸ fun d hd => (waits d hd).2.2
  have queue : QueueOk (update x.mark i none) (settledList x.drainList g i) x.sequence x.queue more := by
    refine QueueOk.settle h.lists mem h.queue notQueued (fun d hd => settledList_ne_nil h.queue hd fun e => ?_)
      fun k j ne mem' => ?_
    · exact other d hd (by rw [e]; exact List.mem_cons_self)
    · rw [left] at mem'
      exact (List.mem_cons.mp mem').resolve_left fun e => ne (congrArg Prod.snd e)
  by_cases last : more = []
  · have done := h.settled_woken hw last (by rw [last] at queue; exact queue)
      fun d hd => ⟨(waits d hd).1, (waits d hd).2.1⟩
    rw [List.tail_cons]
    rw [last] at done ⊢
    exact done
  · rw [Stage.wake_of_leftovers (by exact last)]
    refine h.settled hw queue ⟨h.fence.tail, fun _ => ⟨rfl, fun d hd => ?_⟩, fun e => absurd e last, fun e => absurd e last⟩
    obtain ⟨phase, outstanding, -⟩ := waits d hd
    exact ⟨phase, outstanding, fun mem' => other d hd (List.mem_cons_of_mem _ mem')⟩

/-- The write acknowledged, with none left over, is the head generation's. -/
theorem Stage.Agrees.of_head (hl : x.leftovers = []) {d : DrainStage} {rest : List DrainStage} (hq : x.queue = d :: rest) :
    g = d.group ∧ d.phase = (if d.next.isSome then .issuing else .closing) ∧ d.outstanding = more.length + 1 ∧
      (∀ w ∈ more, w.1 = d.group) ∧ ∀ d' ∈ rest, d'.group ≠ g := by
  obtain ⟨phase, outstanding, owned⟩ := h.fence.head hl d rest hq
  rw [hw] at outstanding owned
  have group : g = d.group := owned (g, i) List.mem_cons_self
  have groups := h.queue.groups
  rw [hq] at groups
  exact ⟨group, phase, outstanding, fun w hm => owned w (List.mem_cons_of_mem _ hm),
    fun d' hd' e => (List.nodup_cons.mp groups).1 (List.mem_map.mpr ⟨d', hd', e.trans group⟩)⟩

/-- What is left in a draining list with nothing to issue is being written. -/
theorem Stage.Agrees.rest_writing {d : DrainStage} (hd : d ∈ x.queue) (closing : d.next = none) (group : g = d.group)
    {j : PoolIndex} (hj : j ∈ settledList x.drainList g i g) : (g, j) ∈ more := by
  obtain ⟨mem, -⟩ := h.writing hw
  obtain ⟨ne, inList⟩ := (h.lists.mem_settledList mem).mp hj
  obtain ⟨-, -, first⟩ := h.queue.record d hd
  have unqueued := List.find?_eq_none.mp (first.symm.trans closing) j (group ▸ inList)
  have writing : marked .writing x.mark j = true := by
    by_contra w
    exact unqueued (h.lists.queued_of_drained inList (Bool.eq_false_iff.mpr w))
  have out := h.writes.mem.mpr ⟨inList, writing⟩
  rw [hw] at out
  exact (List.mem_cons.mp out).resolve_left fun e => ne (congrArg Prod.snd e)

/-- The acknowledgement of its last write retires the head generation (R55). -/
theorem Stage.Agrees.acknowledge_last (hl : x.leftovers = []) {d : DrainStage} {rest : List DrainStage}
    (hq : x.queue = d :: rest) (closing : d.next = none) (last : more = []) :
    (Stage.wake { x.settled g i more with queue := rest }).Agrees := by
  obtain ⟨mem, notQueued⟩ := h.writing hw
  obtain ⟨group, -, -, -, apart⟩ := h.of_head hw hl hq
  have waits := h.fence.tail
  have old := h.queue
  have inQueue : d ∈ x.queue := by rw [hq]; exact List.mem_cons_self
  have empty : settledList x.drainList g i g = [] := List.eq_nil_iff_forall_not_mem.mpr fun j hj => by
    have out := h.rest_writing hw inQueue closing group hj
    rw [last] at out
    cases out
  rw [hq] at waits old
  have queue : QueueOk (update x.mark i none) (settledList x.drainList g i) x.sequence rest [] := by
    refine ⟨(List.nodup_cons.mp old.groups).2, fun d' hd' => ?_, fun k j mem' => ?_⟩
    · obtain ⟨-, sequence, first⟩ := old.record d' (List.mem_cons_of_mem _ hd')
      exact ⟨settledList_ne_nil old (List.mem_cons_of_mem _ hd') (apart d' hd'), sequence,
        first.trans (h.lists.find_settledList mem notQueued _).symm⟩
    · obtain ⟨-, inList⟩ := (h.lists.mem_settledList mem).mp mem'
      have covered := old.covered k j inList
      rw [hl] at covered
      rcases List.mem_cons.mp (covered.resolve_right List.not_mem_nil) with e | inRest
      · have same : k = g := e.trans group.symm
        rw [same, empty] at mem'
        cases mem'
      · exact .inl inRest
  have done := h.settled_woken hw last queue waits
  rw [← hl] at done
  exact done

/-- An acknowledgement before the last only counts it (R54). -/
theorem Stage.Agrees.acknowledge_counted (hl : x.leftovers = []) {d : DrainStage} {rest : List DrainStage}
    (hq : x.queue = d :: rest) (open_ : d.next ≠ none ∨ more ≠ []) :
    Stage.Agrees { x.settled g i more with queue := { d with outstanding := d.outstanding - 1 } :: rest } := by
  obtain ⟨mem, notQueued⟩ := h.writing hw
  obtain ⟨group, phase, outstanding, owned, apart⟩ := h.of_head hw hl hq
  have waits := h.fence.tail
  have old := h.queue
  have writes := WritesOk.settle h.lists mem (hw ▸ h.writes)
  rw [hq] at waits old
  have stays : settledList x.drainList g i d.group ≠ [] := by
    obtain ⟨-, -, first⟩ := old.record d List.mem_cons_self
    rw [← h.lists.find_settledList mem notQueued] at first
    rcases open_ with next | more_
    · intro empty
      rw [empty] at first
      exact next first
    · obtain ⟨⟨k, j⟩, rest', e⟩ := List.exists_cons_of_ne_nil more_
      have out : (k, j) ∈ more := by rw [e]; exact List.mem_cons_self
      have same : k = d.group := owned (k, j) out
      exact List.ne_nil_of_mem (same ▸ (writes.mem.mp out).1)
  have kept := QueueOk.settle h.lists mem old notQueued (left' := x.leftovers) (fun d' hd' => by
    rcases List.mem_cons.mp hd' with rfl | inRest
    · exact stays
    · exact settledList_ne_nil old hd' (apart d' inRest)) fun k j _ mem' => mem'
  refine h.settled (q := { d with outstanding := d.outstanding - 1 } :: rest) hw
    ⟨kept.groups, fun d' hd' => ?_, kept.covered⟩
    ⟨waits, fun e => absurd hl e, fun _ e => absurd e (List.cons_ne_nil _ _), fun _ d' rest' e => ?_⟩
  · rcases List.mem_cons.mp hd' with rfl | inRest
    · exact kept.record d List.mem_cons_self
    · exact kept.record d' (List.mem_cons_of_mem _ inRest)
  · obtain ⟨hd, -⟩ := List.cons.inj e
    subst hd
    exact ⟨phase, by rw [outstanding]; rfl, owned⟩

theorem Stage.Agrees.acknowledge_head (hl : x.leftovers = []) : (x.settled g i more).acknowledge.Agrees := by
  cases hq : x.queue with
  | nil =>
    have idle := h.fence.idle hl hq
    rw [hw] at idle
    cases idle
  | cons d rest =>
    obtain ⟨-, phase, outstanding, -, -⟩ := h.of_head hw hl hq
    have closes : d.phase = .closing ↔ d.next = none := by
      rw [phase]
      cases d.next <;> simp
    have zero : d.outstanding - 1 = 0 ↔ more = [] := by rw [outstanding]; simp
    rw [Stage.acknowledge_of_head (by exact hl) (by exact hq)]
    split
    · rename_i retires
      exact h.acknowledge_last hw hl hq (closes.mp retires.1) (zero.mp retires.2)
    · rename_i stays
      rw [closes, zero] at stays
      exact h.acknowledge_counted hw hl hq (not_and_or.mp stays)

theorem Stage.Agrees.acknowledge : (Stage.settle g i { x with writes := more }).acknowledge.Agrees := by
  obtain ⟨mem, -⟩ := h.writing hw
  rw [Stage.settle_eq mem]
  by_cases hl : x.leftovers = []
  · exact h.acknowledge_head hw hl
  · exact h.acknowledge_leftover hw hl

end

/-! ## RESET_DATAPATH (R23, R48, R61) -/

/-- What RESET_DATAPATH makes of the marks: the WRITING entries alone. -/
def resetMark (mark : PoolIndex → Option Mark) (j : PoolIndex) : Option Mark :=
  if marked .writing mark j then mark j else none

theorem ListsOk.reset {mark : PoolIndex → Option Mark} {ol dl : GroupId → List PoolIndex} {seq : GroupId → BitVec 16}
    (lists : ListsOk mark ol dl seq) :
    ListsOk (resetMark mark) (fun _ => []) (fun g => (dl g).filter (marked .writing mark)) seq := by
  unfold resetMark
  refine ⟨fun k => (lists.drain_nodup k).filter _, fun {k j} => ?_, fun {k j} => ?_, fun {j k st gen} hj => ?_⟩
  · refine iff_of_false List.not_mem_nil fun e => ?_
    split at e
    · rename_i w
      rw [marked, e] at w
      cases w
    · cases e
  · rw [List.mem_filter]
    split
    · rename_i w
      exact (and_iff_left w).trans lists.drained
    · rename_i w
      exact iff_of_false (fun k => w k.2) (by simp)
  · split at hj
    · rename_i w
      refine .inr (List.mem_filter.mpr ⟨(lists.listed hj).resolve_left fun o => ?_, w⟩)
      rw [marked, lists.opened.mp o] at w
      cases w
    · cases hj

theorem Stage.Agrees.reset {x : Stage} (h : x.Agrees) : x.reset.Agrees := by
  have mark : x.reset.mark = resetMark x.mark := funext fun j => by
    show (if x.entryIs .writing j then x.entry j else none).map Entry.mark = _
    rw [Stage.entryIs_eq, resetMark]
    split <;> rfl
  have lists : ListsOk x.reset.mark x.reset.openList x.reset.drainList x.reset.sequence := by
    have new := h.lists.reset
    rw [← mark, ← Stage.entryIs_eq] at new
    exact new
  have drained : ∀ g j, j ∈ x.reset.drainList g ↔ j ∈ x.drainList g ∧ marked .writing x.mark j = true := fun g j => by
    rw [← Stage.entryIs_eq]
    exact List.mem_filter
  refine ⟨lists, ⟨h.writes.nodup, fun {k j} => ?_⟩, ⟨List.nodup_nil, nofun, fun k j mem => ?_⟩,
    ⟨nofun, fun _ => ⟨rfl, nofun⟩, fun e _ => e, fun _ _ _ e => ?_⟩⟩
  · refine h.writes.mem.trans ?_
    rw [drained, mark, and_assoc]
    refine and_congr_right fun _ => ⟨fun w => ⟨w, ?_⟩, fun w => w.1⟩
    rw [marked, resetMark, if_pos w]
    exact w
  · exact .inr (h.writes.mem.mpr ((drained k j).mp mem))
  · cases e

/-! ## Every step -/

theorem Stage.reset_agrees : State.reset.stage.Agrees := by
  have empty : ∀ i, State.reset.stage.mark i = none := fun i => by
    unfold Stage.mark
    exact congrArg (Option.map _) (State.reset_entry i)
  have opened : ∀ g, State.reset.stage.openList g = [] := fun g => congrArg Group.openList (State.reset_group g)
  have drained : ∀ g, State.reset.stage.drainList g = [] := fun g => congrArg Group.drainList (State.reset_group g)
  refine ⟨⟨fun g => ?_, fun {g i} => ?_, fun {g i} => ?_, fun {i g st gen} e => ?_⟩, ⟨List.nodup_nil, fun {g i} => ?_⟩,
    ⟨List.nodup_nil, nofun, fun g i mem => ?_⟩, ⟨nofun, fun e => absurd rfl e, fun _ _ => rfl, nofun⟩⟩
  · rw [opened, drained]
    exact List.nodup_nil
  · rw [opened, empty]
    exact iff_of_false List.not_mem_nil nofun
  · rw [drained, empty]
    exact iff_of_false List.not_mem_nil (by simp)
  · rw [empty] at e
    cases e
  · rw [drained]
    exact iff_of_false List.not_mem_nil fun k => List.not_mem_nil k.1
  · rw [drained] at mem
    cases mem

theorem StageStep.keeps_agrees {x y : Stage} (step : StageStep x true true y) (h : x.Agrees) : y.Agrees := by
  cases step with
  | merge p g i m d e _ he => exact h.merge p m d he
  | allocate p g w m d i _ free => exact h.allocate p g w m d free
  | emptyCommit g ho hd => exact h.emptyCommit ho hd
  | commit g ho hd => exact h.commit ho hd
  | abort g => exact h.abort g
  | issue d rest i e hq hp hn he next hnext => exact h.issue hq hp hn he hnext
  | acknowledge g i more hw => exact h.acknowledge hw
  | reset => exact h.reset
  | limit g v _ =>
    obtain ⟨lists, writes, queue, fence⟩ := h
    exact ⟨lists, writes, queue, fence⟩

/-- Settles O60: the agreement is kept by each step of the staged data, and a chain of those is all a step of the model
does to them. -/
theorem stagedDataInvariant : Obligations.StagedDataInvariant := by
  intro s t hs h
  have start : ∀ (s : State) low listening, (s.startingState low listening).stage = State.reset.stage := fun _ _ _ => rfl
  refine (State.stagedDataAgree_iff t).mpr ?_
  exact step_keeps (fun u => u.stage.Agrees) (fun _ _ hu => hu) (fun u low listening => by rw [start]; exact Stage.reset_agrees)
    (fun _ _ hu hc => hc.keeps_stage (fun _ _ => StageStep.keeps_agrees) hu) s t ((State.stagedDataAgree_iff s).mp hs) h

end Sys2Proof.Machine

/-! PROOFS. Committed data is fixed (R5, R9, R20). -/

namespace Sys2Proof.Machine

open Function (update)

/-- The fields of an entry that a commit fixes. -/
def Entry.SameData (a b : Entry) : Prop :=
  a.word = b.word ∧ a.mask = b.mask ∧ a.data = b.data ∧ a.group = b.group ∧ a.gen = b.gen

/-- Entry i is a committed one with the data of e. -/
def Stage.Fixed (i : PoolIndex) (e : Entry) (x : Stage) : Prop :=
  ∃ e', x.entry i = some e' ∧ e'.state ≠ .staged ∧ e'.SameData e

/-- Entry i is none, or not committed. -/
def Stage.Uncommitted (i : PoolIndex) (x : Stage) : Prop := ∀ e, x.entry i = some e → e.state = .staged

section
variable {x y : Stage} {i : PoolIndex} {e : Entry}

theorem Stage.Fixed.of_entry (h : x.Fixed i e) (same : y.entry i = x.entry i) : y.Fixed i e := by
  unfold Stage.Fixed
  rw [same]
  exact h

/-- A committed entry stands in no open list. -/
theorem Stage.Fixed.unopened (h : x.Fixed i e) (agrees : x.Agrees) (g : GroupId) : i ∉ x.openList g := fun mem => by
  obtain ⟨e', he', committed, -⟩ := h
  have mark := agrees.lists.opened.mp mem
  unfold Stage.mark at mark
  rw [he'] at mark
  have m : e'.mark = (g, .staged, .collecting) := Option.some.inj mark
  exact committed (congrArg (·.2.1) m)

/-- Placements, commits, aborts and issues leave a committed entry its data. -/
theorem StageStep.keeps_fixed (step : StageStep x true false y) (agrees : x.Agrees) (h : x.Fixed i e) : y.Fixed i e := by
  cases step with
  | merge p g j m d e' hj =>
    refine h.of_entry (Function.update_of_ne ?_ _ _)
    rintro rfl
    exact h.unopened agrees g hj
  | allocate p g w m d j _ free =>
    refine h.of_entry (Function.update_of_ne ?_ _ _)
    rintro rfl
    obtain ⟨e', he', -⟩ := h
    rw [free] at he'
    cases he'
  | emptyCommit | limit => exact h
  | commit g | abort g => exact h.of_entry (if_neg (h.unopened agrees g))
  | issue d rest j e' _ _ _ he' =>
    by_cases same : i = j
    · subst same
      obtain ⟨e'', he'', -, data⟩ := h
      obtain rfl : e' = e'' := Option.some.inj (he'.symm.trans he'')
      exact ⟨_, Function.update_self _ _ _, EntryState.noConfusion, data⟩
    · exact h.of_entry (Function.update_of_ne same _ _)

/-- An acknowledgement and RESET_DATAPATH free it or leave it. -/
theorem StageStep.frees_or_keeps (step : StageStep x true true y) (agrees : x.Agrees) (h : x.Fixed i e) :
    y.Fixed i e ∨ y.entry i = none := by
  cases step with
  | acknowledge g j more =>
    obtain ⟨q, l, eq⟩ := Stage.acknowledge_frame (Stage.settle g j { x with writes := more })
    rw [eq]
    unfold Stage.settle
    split
    · by_cases same : i = j
      · subst same
        exact .inr (Function.update_self _ _ _)
      · exact .inl (h.of_entry (Function.update_of_ne same _ _))
    · exact .inl h
  | reset =>
    by_cases w : x.entryIs .writing i
    · exact .inl (h.of_entry (if_pos w))
    · exact .inr (if_neg w)
  | merge p g j m d e' hj he' => exact .inl ((StageStep.merge p g j m d e' hj he').keeps_fixed agrees h)
  | allocate p g w m d j room free => exact .inl ((StageStep.allocate p g w m d j room free).keeps_fixed agrees h)
  | emptyCommit | limit => exact .inl h
  | commit g ho hd => exact .inl ((StageStep.commit g ho hd).keeps_fixed agrees h)
  | abort g => exact .inl ((StageStep.abort g).keeps_fixed agrees h)
  | issue d rest j e' hq hp hn he' next hnext =>
    exact .inl ((StageStep.issue d rest j e' hq hp hn he' next hnext).keeps_fixed agrees h)

/-- A placement commits nothing. -/
theorem StageStep.keeps_uncommitted (step : StageStep x false false y) (h : x.Uncommitted i) : y.Uncommitted i := by
  intro e he
  cases step with
  | merge p g j m d e' _ he' =>
    by_cases same : i = j
    · subst same
      have now : some (e'.mergeWrite p m d) = some e := (Function.update_self i _ x.entry).symm.trans he
      rw [← Option.some.inj now]
      exact h e' he'
    · exact h e ((Function.update_of_ne same _ x.entry).symm.trans he)
  | allocate p g w m d j _ _ =>
    by_cases same : i = j
    · subst same
      have now : some (Entry.allocate p g w m d) = some e := (Function.update_self i _ x.entry).symm.trans he
      rw [← Option.some.inj now]
      rfl
    · exact h e ((Function.update_of_ne same _ x.entry).symm.trans he)

theorem StageSteps.keeps_fixed (steps : StageSteps true false x y) (agrees : x.Agrees) (h : x.Fixed i e) :
    y.Fixed i e := by
  have both : y.Agrees ∧ y.Fixed i e := by
    induction steps with
    | refl => exact ⟨agrees, h⟩
    | tail _ step ih => exact ⟨step.any.keeps_agrees ih.1, step.keeps_fixed ih.1 ih.2⟩
  exact both.2

theorem StageSteps.keeps_uncommitted (steps : StageSteps false false x y) (h : x.Uncommitted i) : y.Uncommitted i := by
  induction steps with
  | refl => exact h
  | tail _ step ih => exact step.keeps_uncommitted ih

end

/-- The effect of a row leaves a committed entry its data, or frees it and commits nothing in its place. -/
theorem Effect.keeps_fixed {c : Instr} {s t : State} {i : PoolIndex} {e : Entry} (h : Effect s c t)
    (agrees : s.stage.Agrees) (fixed : s.stage.Fixed i e) : t.stage.Fixed i e ∨ t.stage.Uncommitted i := by
  have freed : ∀ {y : Stage}, y.entry i = none → y.Uncommitted i := fun none e' he' => by
    rw [none] at he'
    cases he'
  have kept : rowFrees c = false → t.stage.Fixed i e := fun k => by
    have steps := h.stageSteps
    rw [k] at steps
    exact steps.keeps_fixed agrees fixed
  cases h with
  | memoryResponse status memory =>
    obtain ⟨y, rfl | first, rest⟩ := s.memoryResponse_stage status memory
    · exact .inl (StageSteps.keeps_fixed rest agrees fixed)
    · rcases first.frees_or_keeps agrees fixed with k | k
      · exact .inl (StageSteps.keeps_fixed rest (first.keeps_agrees agrees) k)
      · exact .inr (StageSteps.keeps_uncommitted rest (freed k))
  | resetDatapath =>
    rw [s.resetDatapath_stage]
    exact (StageStep.reset.frees_or_keeps agrees fixed).imp_right freed
  | _ => exact .inl (kept rfl)

/-- One period of REFCLK gives up no committed entry. -/
theorem State.refclkPeriod_stage (s : State) : StageSteps true false s.stage s.refclkPeriod.stage := by
  have ifDue : ∀ {u v : State} (due : Bool) {f : State → State}, StageSteps true false u.stage v.stage →
      StageSteps true false v.stage (f v).stage → StageSteps true false u.stage (v.ifDue due f).stage :=
    fun due f h hf => by
      unfold State.ifDue
      split
      · exact h.trans hf
      · exact h
  have budgets : ∀ (gs : List GroupId) (v : State), (gs.foldl (fun t g => t.expireBudget g) v).stage = v.stage := by
    intro gs
    induction gs with
    | nil => exact fun v => rfl
    | cons g gs ih => exact fun v => (ih _).trans (v.expireBudget_stage g)
  unfold State.refclkPeriod State.awake
  split
  · exact .refl
  · refine ifDue _ (ifDue _ (ifDue _ (ifDue _ (StageSteps.of_eq rfl) ?_) ?_) (State.syncEdge_stage _))
      (State.slotsAt_stage _ _)
    · have advanced : ∀ u : State, u.usAdvance.initComplete.dueExpiries.stage = u.stage := fun u => by
        unfold State.dueExpiries
        rw [budgets, State.expireHold_stage, State.expireHold_stage]
        unfold State.initComplete
        split <;> rfl
      exact StageSteps.of_eq (advanced _)
    · split
      · exact (Effect.counterStep (s := _)).stageSteps
      · exact (Effect.naturalWrap (s := _)).stageSteps

theorem step_keeps_fixed {s t : State} {i : PoolIndex} {e : Entry} (h : step s = .next t) (agrees : s.stage.Agrees)
    (fixed : s.stage.Fixed i e) : t.stage.Fixed i e ∨ t.stage.Uncommitted i := by
  have cleared : ∀ (u : State) low listening, (u.startingState low listening).stage.Uncommitted i :=
      fun u low listening e' he' => by
    have none := State.reset_entry i
    rw [show (u.startingState low listening).stage.entry i = State.reset.entry i from rfl, none] at he'
    cases he'
  unfold step at h
  split at h
  · cases h
    exact .inl (s.refclkPeriod_stage.keeps_fixed agrees fixed)
  · rename_i c rest _
    by_cases h1 : c = .resetNAssert
    · subst h1
      cases h
      exact .inr (cleared _ _ _)
    · by_cases h2 : c = .resetNRelease
      · subst h2
        cases h
        split
        · exact .inr (cleared _ _ _)
        · exact .inl fixed
      · cases exec_outcome h h1 h2 with
        | row _ eff => exact eff.keeps_fixed agrees fixed
        | @done u eff data => exact eff.keeps_fixed (t := u) agrees fixed
        | deaf | unheard | refused | shown | clash | occupied => exact .inl fixed

/-- Settles O56: of the steps of the staged data only an acknowledgement and RESET_DATAPATH free a committed entry, and what
follows them in the same row places writes and commits nothing. -/
theorem committedDataIsFixed : Obligations.CommittedDataIsFixed := by
  intro s t i e agrees h he committed
  have fixed : s.stage.Fixed i e := ⟨e, he, committed, rfl, rfl, rfl, rfl, rfl⟩
  rcases step_keeps_fixed h ((State.stagedDataAgree_iff s).mp agrees) fixed with ⟨e', he', -, data⟩ | un
  · exact .inr ⟨e', he', .inr data⟩
  · cases ht : t.entry i with
    | none => exact .inl rfl
    | some e' => exact .inr ⟨e', rfl, .inl (un e' ht)⟩

end Sys2Proof.Machine

/-! PROOFS. PUT_SETTING, row by row of the settings table (10.4): what its argument bytes spell, the range of its item, and
what GET_SETTING returns after it. -/

namespace Sys2Proof.Machine

/-! ## Argument bytes: those in range, and the value they spell (R169, 10.4) -/

theorem littleEndian_byte (v : Byte) : littleEndian [v] = v.toNat := by simp [littleEndian]

theorem byteOf_toNat {w : Nat} (x : BitVec w) (n : Nat) : (byteOf x n).toNat = x.toNat / 2 ^ (8 * n) % 256 := by
  simp [byteOf, BitVec.extractLsb'_toNat, Nat.shiftRight_eq_div_pow]

theorem littleEndian_two (v : BitVec 16) : littleEndian [byteOf v 0, byteOf v 1] = v.toNat := by
  have := v.isLt
  simp only [littleEndian, byteOf_toNat]
  omega

theorem littleEndian_lt (l : List Byte) : littleEndian l < 256 ^ l.length := by
  induction l with
  | nil => exact Nat.one_pos
  | cons b l ih =>
    have := b.isLt
    rw [littleEndian, List.length_cons, Nat.pow_succ]
    omega

/-- An argument is one of the values that the settings table allows. -/
def InRange (item : Byte) (value : List Byte) : Prop :=
  (settingRange item).1 ≤ littleEndian value ∧ littleEndian value ≤ (settingRange item).2

theorem argSwitch_isSome (v : Byte) : (argSwitch v).isSome = true ↔ 0 ≤ littleEndian [v] ∧ littleEndian [v] ≤ 1 := by
  rw [littleEndian_byte]
  unfold argSwitch
  split <;> simp_all
  omega

theorem argRange_isSome (lo hi : Nat) (v : Byte) :
    (argRange lo hi v).isSome = true ↔ lo ≤ littleEndian [v] ∧ littleEndian [v] ≤ hi := by
  rw [littleEndian_byte]
  unfold argRange
  split <;> simp_all

theorem argMicroseconds_isSome (v : BitVec 16) : (argMicroseconds v).isSome = true ↔
    0 ≤ littleEndian [byteOf v 0, byteOf v 1] ∧ littleEndian [byteOf v 0, byteOf v 1] ≤ 4095 := by
  rw [littleEndian_two]
  unfold argMicroseconds
  split <;> simp_all <;> omega

theorem argPeriod_isSome (v : BitVec 16) : (argPeriod v).isSome = true ↔
    2 ≤ littleEndian [byteOf v 0, byteOf v 1] ∧ littleEndian [byteOf v 0, byteOf v 1] ≤ 65535 := by
  have := v.isLt
  rw [littleEndian_two]
  unfold argPeriod
  split <;> simp_all
  omega

theorem argGrantPolicy_isSome (v : Byte) :
    (argGrantPolicy v).isSome = true ↔ 0 ≤ littleEndian [v] ∧ littleEndian [v] ≤ 2 := by
  rw [littleEndian_byte]
  unfold argGrantPolicy
  split <;> simp_all
  omega

theorem argTrigger_isSome (v : Byte) :
    (argTrigger v).isSome = true ↔ 0 ≤ littleEndian [v] ∧ littleEndian [v] ≤ 2 := by
  rw [littleEndian_byte]
  unfold argTrigger
  split <;> simp_all
  omega

theorem argDirection_isSome (v : Byte) :
    (argDirection v).isSome = true ↔ 0 ≤ littleEndian [v] ∧ littleEndian [v] ≤ 2 := by
  rw [littleEndian_byte]
  unfold argDirection
  split <;> simp_all
  omega

theorem argMode_isSome (v : Byte) : (argMode v).isSome = true ↔ 0 ≤ littleEndian [v] ∧ littleEndian [v] ≤ 1 := by
  rw [littleEndian_byte]
  unfold argMode
  split <;> simp_all
  omega

theorem argPolicy_isSome (v : Byte) : (argPolicy v).isSome = true ↔ 0 ≤ littleEndian [v] ∧ littleEndian [v] ≤ 1 := by
  rw [littleEndian_byte]
  unfold argPolicy
  split <;> simp_all
  omega

section
variable {v : Byte}

theorem byteBool_of_arg {b : Bool} (h : argSwitch v = some b) : byteBool b = [v] := by
  unfold argSwitch at h
  split at h <;> cases h
  · rename_i zero
    rw [show v = 0 from BitVec.eq_of_toNat_eq zero]
    rfl
  · rename_i one
    rw [show v = 1 from BitVec.eq_of_toNat_eq one]
    rfl

theorem argRange_eq {lo hi : Nat} {x : Byte} (h : argRange lo hi v = some x) : x = v := by
  unfold argRange at h
  split at h
  · exact (Option.some.inj h).symm
  · cases h

theorem grantPolicy_code {p : GrantPolicy} (h : argGrantPolicy v = some p) : p.code = v := by
  unfold argGrantPolicy at h
  split at h <;> cases h
  all_goals exact BitVec.eq_of_toNat_eq (Eq.symm (by assumption))

theorem trigger_code {p : TriggerSource} (h : argTrigger v = some p) : p.code = v := by
  unfold argTrigger at h
  split at h <;> cases h
  all_goals exact BitVec.eq_of_toNat_eq (Eq.symm (by assumption))

theorem direction_code {p : Direction} (h : argDirection v = some p) : p.code = v := by
  unfold argDirection at h
  split at h <;> cases h
  all_goals exact BitVec.eq_of_toNat_eq (Eq.symm (by assumption))

theorem mode_code {p : GroupMode} (h : argMode v = some p) : p.code = v := by
  unfold argMode at h
  split at h <;> cases h
  all_goals exact BitVec.eq_of_toNat_eq (Eq.symm (by assumption))

theorem policy_code {p : FullPolicy} (h : argPolicy v = some p) : p.code = v := by
  unfold argPolicy at h
  split at h <;> cases h
  all_goals exact BitVec.eq_of_toNat_eq (Eq.symm (by assumption))

end

theorem bytesLE_two (v : BitVec 16) : bytesLE 2 v = [byteOf v 0, byteOf v 1] := rfl

theorem bytesLE_microseconds {v : BitVec 16} {x : BitVec 12} (h : argMicroseconds v = some x) :
    bytesLE 2 x = [byteOf v 0, byteOf v 1] := by
  unfold argMicroseconds at h
  split at h
  · rename_i small
    rw [← Option.some.inj h]
    have same : ∀ n, byteOf (v.setWidth 12) n = byteOf v n := fun n => BitVec.eq_of_toNat_eq (by
      rw [byteOf_toNat, byteOf_toNat, BitVec.toNat_setWidth, Nat.mod_eq_of_lt small])
    change [byteOf (v.setWidth 12) 0, byteOf (v.setWidth 12) 1] = _
    rw [same, same]
  · cases h

theorem argPeriod_eq {v x : BitVec 16} (h : argPeriod v = some x) : x = v := by
  unfold argPeriod at h
  split at h
  · exact (Option.some.inj h).symm
  · cases h

end Sys2Proof.Machine

/-! PROOFS. How each PUT_SETTING row is judged, and what it leaves to be read (10.4, R168, R171, R172). -/

namespace Sys2Proof.Machine

/-! ## What the owner of a setting does -/

/-- The items whose written value pends while the timebase is RUNNING. -/
def Pends (item : Byte) : Prop := item = 2 ∨ item = 3 ∨ item = 18

/-- The owner refuses as BUSY or BAD_STATE, or accepts, and then the setting reads as written, unless it pends. -/
def Owns (item index : Byte) (value : List Byte) (owner : State → State) : Prop :=
  ∀ s : State, (∃ code, (code = .busy ∨ code = .badState) ∧ owner s = s.refuse code 0) ∨
    ∃ u : State, owner s = u.accept ∧ u.op = s.op ∧ u.resetLow = s.resetLow ∧ u.mgmt = s.mgmt ∧
      ((s.tb.running = true → ¬ Pends item) → u.settingValue item index = some value)

/-- How a PUT_SETTING row is judged: by the INIT check, then its index, then the range of its value, then its owner. -/
inductive SettingRow (item index : Byte) (value : List Byte) : Instr → Prop
  | global {c : Instr} {α : Type} {arg : Option α} {owner : α → State → State} (low : item.toNat < 16)
      (range : arg.isSome = true ↔ InRange item value)
      (owns : ∀ v, arg = some v → index = 0 → Owns item index value (owner v))
      (row : ∀ s, exec c s = .next (s.hearing (State.putGlobal index arg owner))) : SettingRow item index value c
  | indexed {c : Instr} {α : Type} {arg : Option α} {owner : Fin 4 → α → State → State} (high : 16 ≤ item.toNat)
      (range : arg.isSome = true ↔ InRange item value)
      (owns : ∀ v, arg = some v → ∀ n : Fin 4, argBelow 4 index = some n → Owns item index value (owner n v))
      (row : ∀ s, exec c s = .next (s.hearing (State.putIndexed index arg owner))) : SettingRow item index value c

theorem settingValue_global {s : State} {item : Byte} {value : List Byte} (h : s.globalValue item = some value) :
    s.settingValue item 0 = some value := by
  unfold State.settingValue
  rw [h]
  rfl

section
variable {s : State} {item index : Byte} {n : Fin 4} {value : List Byte} (hn : argBelow 4 index = some n)
include hn

theorem settingValue_group (low : s.globalValue item = none) (h : (s.group n).itemValue item = some value) :
    s.settingValue item index = some value := by
  unfold State.settingValue
  rw [low, hn]
  change ((s.group n).itemValue item).or _ = _
  rw [h]
  rfl

theorem settingValue_channel (low : s.globalValue item = none) (noGroup : (s.group n).itemValue item = none)
    (h : (s.channel n).itemValue item = some value) : s.settingValue item index = some value := by
  unfold State.settingValue
  rw [low, hn]
  change ((s.group n).itemValue item).or _ = _
  rw [noGroup, h]
  rfl

end

/-! ## The owners -/

section
variable {item index : Byte} {value : List Byte} {α : Type}

/-- An owner that accepts. -/
theorem Owns.accept {f : State → State}
    (frame : ∀ s, (f s).op = s.op ∧ (f s).resetLow = s.resetLow ∧ (f s).mgmt = s.mgmt)
    (reads : ∀ s : State, (s.tb.running = true → ¬ Pends item) → (f s).settingValue item index = some value) :
    Owns item index value fun s => (f s).accept := fun s => by
  obtain ⟨op, low, mgmt⟩ := frame s
  exact .inr ⟨f s, rfl, op, low, mgmt, reads s⟩

/-- An owner of a group's setting that is accepted at any time. -/
theorem Owns.setGroup {n : Fin 4} (hn : argBelow 4 index = some n) (low : ∀ s : State, s.globalValue item = none)
    {change : α → Group → Group} {v : α} (reads : ∀ g, (change v g).itemValue item = some value) :
    Owns item index value (State.setGroup change n v) :=
  .accept (fun _ => ⟨rfl, rfl, rfl⟩) fun s _ => settingValue_group hn (low _) (by
    rw [State.group_withGroup_same]
    exact reads _)

/-- An owner of a group's setting that is accepted while the group is IDLE or OFF. -/
theorem Owns.setQuietGroup {n : Fin 4} (hn : argBelow 4 index = some n) (low : ∀ s : State, s.globalValue item = none)
    {change : α → Group → Group} {v : α} (reads : ∀ g, (change v g).itemValue item = some value) :
    Owns item index value (State.setQuietGroup change n v) := fun s => by
  unfold State.setQuietGroup
  split
  · exact Owns.setGroup hn low reads s
  · exact .inl ⟨.busy, .inl rfl, rfl⟩

theorem Owns.setChannel {n : Fin 4} (hn : argBelow 4 index = some n) (low : ∀ s : State, s.globalValue item = none)
    (noGroup : ∀ g : Group, g.itemValue item = none) {change : α → Channel → Channel} {v : α}
    (reads : ∀ ch, (change v ch).itemValue item = some value) : Owns item index value (State.setChannel change n v) :=
  .accept (fun _ => ⟨rfl, rfl, rfl⟩) fun s _ => settingValue_channel hn (low _) (noGroup _) (by
    rw [State.channel_withChannel_same]
    exact reads _)

end

theorem Owns.writeGroupEnabled {index v : Byte} {n : Fin 4} (hn : argBelow 4 index = some n) {b : Bool}
    (hb : argSwitch v = some b) : Owns 16 index [v] (State.writeGroupEnabled n b) := fun s => by
  have reads : ∀ g : Group, g.enabled = b → g.itemValue 16 = some [v] := fun g h => by
    rw [← byteBool_of_arg hb, ← h]
    rfl
  unfold State.writeGroupEnabled
  cases b with
  | true =>
    exact Owns.setGroup (change := fun _ g => { g with enabled := true }) (v := ()) hn (fun _ => rfl) (fun g => reads _ rfl) s
  | false =>
    rw [if_neg Bool.false_ne_true]
    split
    · rename_i off
      exact .inr ⟨s, rfl, rfl, rfl, rfl, fun _ => settingValue_group hn rfl (reads _ (by simpa using off))⟩
    · split
      · exact .inl ⟨.badState, .inr rfl, rfl⟩
      · exact Owns.setGroup (change := fun _ g => { g with enabled := false }) (v := ()) hn (fun _ => rfl)
          (fun g => reads _ rfl) s

theorem Owns.writeSlotOffset {index : Byte} {n : Fin 4} (hn : argBelow 4 index = some n) (v : BitVec 16) :
    Owns 18 index [byteOf v 0, byteOf v 1] (State.always (State.writeSlotOffset n) v) :=
  .accept (fun s => by unfold State.writeSlotOffset; split <;> simp) fun s stopped =>
    settingValue_group hn rfl (by
      unfold State.writeSlotOffset
      rw [if_neg fun run => stopped run (.inr (.inr rfl)), State.evaluateSlotRange_group, State.group_withGroup_same]
      rfl)

theorem Owns.writePeriod (v : BitVec 16) :
    Owns 3 0 [byteOf v 0, byteOf v 1] (State.always State.writePeriod v) :=
  .accept (fun s => by unfold State.writePeriod; split <;> simp) fun s stopped =>
    settingValue_global (by
      unfold State.writePeriod
      rw [if_neg fun run => stopped run (.inr (.inl rfl))]
      unfold State.globalValue
      simp [bytesLE_two])

theorem Owns.writePrescale (v : Byte) :
    Owns 2 0 [v] (State.always (fun v s => s.withTb (s.tb.writePrescale v)) v) :=
  .accept (fun s => ⟨rfl, rfl, rfl⟩) fun s stopped =>
    settingValue_global (by
      unfold Timebase.writePrescale
      dsimp only
      rw [if_neg fun run => stopped run (.inl rfl)]
      rfl)

theorem Channel.writeEnabled_enabled (b : Bool) (ch : Channel) : (ch.writeEnabled b).enabled = b := by
  unfold Channel.writeEnabled Channel.enabled
  cases b <;> cases h : ch.state <;> simp [h]

theorem Channel.writeGate_gate (b : Bool) (ch : Channel) : (ch.writeGate b).gate = b := by
  unfold Channel.writeGate Channel.rearmed
  dsimp only
  repeat' split
  all_goals rfl

/-! ## The rows -/

theorem inRange_of_le {item : Byte} {value : List Byte} {n : Nat} (h : settingRange item = (0, n))
    (le : littleEndian value ≤ n) : InRange item value := by
  unfold InRange
  rw [h]
  exact ⟨Nat.zero_le _, le⟩

theorem littleEndian_byte_le (v : Byte) : littleEndian [v] ≤ 65535 := by
  have := v.isLt
  rw [littleEndian_byte]
  omega

theorem littleEndian_two_le (v : BitVec 16) : littleEndian [byteOf v 0, byteOf v 1] ≤ 65535 := by
  have := v.isLt
  rw [littleEndian_two]
  omega

theorem littleEndian_match_le (a b : Lanes) : littleEndian (a.toList ++ b.toList) ≤ 256 ^ 16 - 1 := by
  have := littleEndian_lt (a.toList ++ b.toList)
  rw [List.length_append, Vector.length_toList, Vector.length_toList] at this
  omega

/-- The rows of the settings table: each PUT_SETTING command with a value, its item, index and value bytes. -/
inductive PutRow : Instr → Byte → Byte → List Byte → Prop
  | referenceFrequency (i v) : PutRow (.putSettingReferenceFrequency i v) 1 i [v]
  | timebasePrescale (i v) : PutRow (.putSettingTimebasePrescale i v) 2 i [v]
  | period (i v) : PutRow (.putSettingPeriod i v) 3 i [byteOf v 0, byteOf v 1]
  | syncEnable (i v) : PutRow (.putSettingSyncEnable i v) 4 i [v]
  | grantPolicy (i v) : PutRow (.putSettingGrantPolicy i v) 5 i [v]
  | captureThreshold (i v) : PutRow (.putSettingCaptureThreshold i v) 6 i [v]
  | groupEnabled (i v) : PutRow (.putSettingGroupEnabled i v) 16 i [v]
  | triggerSource (i v) : PutRow (.putSettingTriggerSource i v) 17 i [v]
  | slotOffset (i v) : PutRow (.putSettingSlotOffset i v) 18 i [byteOf v 0, byteOf v 1]
  | mode (i v) : PutRow (.putSettingMode i v) 19 i [v]
  | fullPolicy (i v) : PutRow (.putSettingFullPolicy i v) 20 i [v]
  | entryLimit (i v) : PutRow (.putSettingEntryLimit i v) 21 i [v]
  | holdLimit (i v) : PutRow (.putSettingHoldLimit i v) 22 i [byteOf v 0, byteOf v 1]
  | drainBudget (i v) : PutRow (.putSettingDrainBudget i v) 23 i [byteOf v 0, byteOf v 1]
  | logCommits (i v) : PutRow (.putSettingLogCommits i v) 24 i [v]
  | channelEnabled (i v) : PutRow (.putSettingChannelEnabled i v) 32 i [v]
  | direction (i v) : PutRow (.putSettingDirection i v) 33 i [v]
  | channelPrescale (i v) : PutRow (.putSettingChannelPrescale i v) 34 i [v]
  | gate (i v) : PutRow (.putSettingGate i v) 35 i [v]
  | rearmAtWrap (i v) : PutRow (.putSettingRearmAtWrap i v) 36 i [v]
  | matching (i a b) : PutRow (.putSettingMatch i a b) 37 i (a.toList ++ b.toList)
  | recordData (i v) : PutRow (.putSettingRecordData i v) 38 i [v]

/-- A frame with command byte 02h and a third byte spells a row of the settings table or an unknown item. -/
theorem putRow_of_encode {c : Instr} {item index : Byte} {value : List Byte}
    (h : encodeFrame c = some (0x02#8 :: item :: index :: value)) :
    PutRow c item index value ∨ c = .putSettingUnknownItem item index := by
  cases c with
  | putSettingReferenceFrequency | putSettingTimebasePrescale | putSettingPeriod | putSettingSyncEnable |
    putSettingGrantPolicy | putSettingCaptureThreshold | putSettingGroupEnabled | putSettingTriggerSource |
    putSettingSlotOffset | putSettingMode | putSettingFullPolicy | putSettingEntryLimit | putSettingHoldLimit |
    putSettingDrainBudget | putSettingLogCommits | putSettingChannelEnabled | putSettingDirection |
    putSettingChannelPrescale | putSettingGate | putSettingRearmAtWrap | putSettingMatch | putSettingRecordData =>
    cases h
    exact .inl (by constructor)
  | putSettingUnknownItem i j => cases h; exact .inr rfl
  | _ => simp [encodeFrame] at h

theorem PutRow.settingRow {c : Instr} {item index : Byte} {value : List Byte} (h : PutRow c item index value) :
    SettingRow item index value c := by
  cases h with
  | referenceFrequency i v =>
    refine .global (by decide) (argRange_isSome 10 200 v) (fun x hx hi => ?_) fun _ => rfl
    rw [hi, ← argRange_eq hx]
    exact .accept (fun _ => ⟨rfl, rfl, rfl⟩) fun s _ => settingValue_global rfl
  | timebasePrescale i v =>
    refine .global (by decide) (iff_of_true rfl (inRange_of_le rfl (littleEndian_byte_le v))) (fun x hx hi => ?_) fun _ => rfl
    rw [hi, ← Option.some.inj hx]
    exact Owns.writePrescale v
  | period i v =>
    refine .global (by decide) (argPeriod_isSome v) (fun x hx hi => ?_) fun _ => rfl
    rw [hi, argPeriod_eq hx]
    exact Owns.writePeriod v
  | syncEnable i v =>
    refine .global (by decide) (argSwitch_isSome v) (fun x hx hi => ?_) fun _ => rfl
    rw [hi, ← byteBool_of_arg hx]
    exact .accept (fun _ => ⟨rfl, rfl, rfl⟩) fun s _ => settingValue_global rfl
  | grantPolicy i v =>
    refine .global (by decide) (argGrantPolicy_isSome v) (fun x hx hi => ?_) fun _ => rfl
    rw [hi, ← grantPolicy_code hx]
    exact .accept (fun _ => ⟨rfl, rfl, rfl⟩) fun s _ => settingValue_global rfl
  | captureThreshold i v =>
    refine .global (by decide) (argRange_isSome 1 32 v) (fun x hx hi => ?_) fun _ => rfl
    rw [hi, ← argRange_eq hx]
    exact .accept (fun _ => ⟨rfl, rfl, rfl⟩) fun s _ => settingValue_global rfl
  | groupEnabled i v =>
    exact .indexed (by decide) (argSwitch_isSome v) (fun x hx n hn => .writeGroupEnabled hn hx) fun _ => rfl
  | triggerSource i v =>
    refine .indexed (by decide) (argTrigger_isSome v) (fun x hx n hn => ?_) fun _ => rfl
    exact .setGroup hn (fun _ => rfl) fun _ => congrArg (fun b => some [b]) (trigger_code hx)
  | slotOffset i v =>
    refine .indexed (by decide) (iff_of_true rfl (inRange_of_le rfl (littleEndian_two_le v))) (fun x hx n hn => ?_) fun _ => rfl
    rw [← Option.some.inj hx]
    exact .writeSlotOffset hn v
  | mode i v =>
    refine .indexed (by decide) (argMode_isSome v) (fun x hx n hn => ?_) fun _ => rfl
    exact .setQuietGroup hn (fun _ => rfl) fun _ => congrArg (fun b => some [b]) (mode_code hx)
  | fullPolicy i v =>
    refine .indexed (by decide) (argPolicy_isSome v) (fun x hx n hn => ?_) fun _ => rfl
    exact .setQuietGroup hn (fun _ => rfl) fun _ => congrArg (fun b => some [b]) (policy_code hx)
  | entryLimit i v =>
    refine .indexed (by decide) (argRange_isSome 1 64 v) (fun x hx n hn => ?_) fun _ => rfl
    exact .setQuietGroup hn (fun _ => rfl) fun _ => congrArg (fun b => some [b]) (argRange_eq hx)
  | holdLimit i v =>
    refine .indexed (by decide) (argMicroseconds_isSome v) (fun x hx n hn => ?_) fun _ => rfl
    exact .setGroup hn (fun _ => rfl) fun _ => congrArg some (bytesLE_microseconds hx)
  | drainBudget i v =>
    refine .indexed (by decide) (argMicroseconds_isSome v) (fun x hx n hn => ?_) fun _ => rfl
    exact .setGroup hn (fun _ => rfl) fun _ => congrArg some (bytesLE_microseconds hx)
  | logCommits i v =>
    refine .indexed (by decide) (argSwitch_isSome v) (fun x hx n hn => ?_) fun _ => rfl
    exact .setGroup hn (fun _ => rfl) fun _ => congrArg some (byteBool_of_arg hx)
  | channelEnabled i v =>
    refine .indexed (by decide) (argSwitch_isSome v) (fun x hx n hn => ?_) fun _ => rfl
    refine .setChannel hn (fun _ => rfl) (fun _ => rfl) fun ch => congrArg some ?_
    rw [Channel.writeEnabled_enabled]
    exact byteBool_of_arg hx
  | direction i v =>
    refine .indexed (by decide) (argDirection_isSome v) (fun x hx n hn => ?_) fun _ => rfl
    exact .setChannel hn (fun _ => rfl) (fun _ => rfl) fun _ => congrArg (fun b => some [b]) (direction_code hx)
  | channelPrescale i v =>
    refine .indexed (by decide) (iff_of_true rfl (inRange_of_le rfl (littleEndian_byte_le v)))
      (fun x hx n hn => ?_) fun _ => rfl
    rw [← Option.some.inj hx]
    exact .setChannel hn (fun _ => rfl) (fun _ => rfl) fun _ => rfl
  | gate i v =>
    refine .indexed (by decide) (argSwitch_isSome v) (fun x hx n hn => ?_) fun _ => rfl
    refine .setChannel hn (fun _ => rfl) (fun _ => rfl) fun ch => congrArg some ?_
    rw [Channel.writeGate_gate]
    exact byteBool_of_arg hx
  | rearmAtWrap i v =>
    refine .indexed (by decide) (argSwitch_isSome v) (fun x hx n hn => ?_) fun _ => rfl
    exact .setChannel hn (fun _ => rfl) (fun _ => rfl) fun _ => congrArg some (byteBool_of_arg hx)
  | matching i a b =>
    refine .indexed (by decide) (iff_of_true rfl (inRange_of_le rfl (littleEndian_match_le a b))) (fun x hx n hn => ?_)
      fun _ => rfl
    rw [← Option.some.inj hx]
    exact .setChannel hn (fun _ => rfl) (fun _ => rfl) fun _ => rfl
  | recordData i v =>
    refine .indexed (by decide) (argSwitch_isSome v) (fun x hx n hn => ?_) fun _ => rfl
    exact .setChannel hn (fun _ => rfl) (fun _ => rfl) fun _ => congrArg some (byteBool_of_arg hx)

end Sys2Proof.Machine

/-! PROOFS. The range of the settings, and what is read back of them (10.4, R168, R171, R172). -/

namespace Sys2Proof.Machine

section
variable {item index : Byte} {value : List Byte} {c : Instr}

/-- A row outside its range is refused, and one inside it is its owner's. -/
theorem SettingRow.judged (h : SettingRow item index value c) {s : State} (hs : s.takesFrames) :
    (s.op = .init → exec c s = .next (s.refuse .badState 0)) ∧
    (s.op ≠ .init → ¬ settingInRange item index value → exec c s = .next (s.refuse .badArgument 0)) ∧
    (s.op ≠ .init → settingInRange item index value →
      ∃ owner, Owns item index value owner ∧ exec c s = .next (owner s)) := by
  cases h with
  | @global _ arg owner low range owns row =>
    rw [row, State.hearing_of_listening hs.1 hs.2]
    refine ⟨fun hi => congrArg _ (State.unlessInit_of_init hi 0 _), fun hi out => ?_, fun hi inside => ?_⟩
    · refine congrArg _ ((State.unlessInit_of_ne hi 0 _).trans ?_)
      by_cases h0 : index = 0
      · rw [if_neg fun k => k h0]
        cases ha : arg with
        | none => rfl
        | some v => exact absurd ⟨(if_pos low).mpr h0, range.mp (by rw [ha]; rfl)⟩ out
      · exact if_pos h0
    · obtain ⟨h0, inRange⟩ := inside
      rw [if_pos low] at h0
      obtain ⟨v, hv⟩ := Option.isSome_iff_exists.mp (range.mpr inRange)
      exact ⟨owner v, owns v hv h0, congrArg _ (by rw [h0]; exact State.putGlobal_of_ok hi hv _)⟩
  | @indexed _ arg owner high range owns row =>
    have notLow : ¬ item.toNat < 16 := by omega
    rw [row, State.hearing_of_listening hs.1 hs.2]
    refine ⟨fun hi => congrArg _ (State.unlessInit_of_init hi 0 _), fun hi out => ?_, fun hi inside => ?_⟩
    · refine congrArg _ ((State.unlessInit_of_ne hi 0 _).trans ?_)
      cases hn : argBelow 4 index with
      | none => rfl
      | some n =>
        cases ha : arg with
        | none => rfl
        | some v =>
          have small : index.toNat < 4 := argBelow_some.mp hn ▸ n.isLt
          exact absurd ⟨(if_neg notLow).mpr small, range.mp (by rw [ha]; rfl)⟩ out
    · obtain ⟨small, inRange⟩ := inside
      rw [if_neg notLow] at small
      obtain ⟨v, hv⟩ := Option.isSome_iff_exists.mp (range.mpr inRange)
      have hn : argBelow 4 index = some ⟨index.toNat, small⟩ := argBelow_some.mpr rfl
      exact ⟨owner _ v, owns v hv _ hn, congrArg _ (State.putIndexed_of_ok hi hn hv _)⟩

end

theorem exec_unknownItem {s : State} (hs : s.takesFrames) {item : Byte} (h : settingValueBytes item = none) (index : Byte) :
    exec (.putSettingUnknownItem item index) s =
      .next (s.refuse (if s.op = .init then .badState else .badArgument) 0) := by
  have unnamed : ¬ (settingValueBytes item).isSome = true := by rw [h]; exact Bool.false_ne_true
  simp only [exec, execPutSettingUnknownItem]
  rw [if_neg unnamed, State.hearing_of_listening hs.1 hs.2]
  split
  · rename_i hi
    rw [State.unlessInit_of_init hi]
  · rename_i hi
    rw [State.unlessInit_of_ne hi]

/-- A GET_SETTING of an item that has a value (R171). -/
theorem exec_getSetting_of_value {s : State} (hs : s.takesFrames) (hi : s.op ≠ .init) {item index : Byte}
    {value : List Byte} (h : s.settingValue item index = some value) :
    exec (.getSetting item index) s = .next (s.reply .accepted value) := by
  simp only [exec, execGetSetting]
  rw [State.hearing_of_listening hs.1 hs.2, State.unlessInit_of_ne hi, h]

/-- Settles O16: a row of the settings table outside its range is refused, and its owner answers one in range. -/
theorem settingsOutOfRangeAreRefused : Obligations.SettingsOutOfRangeAreRefused := by
  intro c s item index value hs hw he known
  rcases putRow_of_encode he with row | rfl
  · obtain ⟨init, outside, inside⟩ := row.settingRow.judged hs
    refine ⟨init, outside, fun hi inRange => ?_⟩
    obtain ⟨owner, owns, run⟩ := inside hi inRange
    rcases owns s with ⟨code, answer, eq⟩ | ⟨u, eq, -⟩
    · exact ⟨_, code, run, by rw [eq]; rfl, .inr answer⟩
    · exact ⟨_, .accepted, run, by rw [eq]; rfl, .inl rfl⟩
  · exact absurd (Option.isNone_iff_eq_none.mp hw) known

/-- Settles O13: an accepted row is one in range, and its owner leaves the value to be read. -/
theorem acceptedSettingReadsBack : Obligations.AcceptedSettingReadsBack := by
  intro c s t item index value hs hw he run accepted pends
  have refused : ∀ {code : ResultCode}, exec c s = .next (s.refuse code 0) → code = .accepted := fun {code} k => by
    rw [k] at run
    cases run
    cases accepted
    rfl
  rcases putRow_of_encode he with row | rfl
  · obtain ⟨init, outside, inside⟩ := row.settingRow.judged hs
    by_cases hi : s.op = .init
    · cases refused (init hi)
    · by_cases inRange : settingInRange item index value
      · obtain ⟨owner, owns, eq⟩ := inside hi inRange
        rcases owns s with ⟨code, answer, e⟩ | ⟨u, e, op, low, mgmt, reads⟩
        · have := refused (eq.trans (congrArg _ e))
          rcases answer with rfl | rfl <;> cases this
        · rw [eq, e] at run
          cases run
          have value := reads fun run pend => by
            obtain ⟨h2, h3, h18⟩ := pends run
            rcases pend with k | k | k
            · exact h2 k
            · exact h3 k
            · exact h18 k
          refine exec_getSetting_of_value (s := u.accept) ⟨low.trans hs.1, ?_⟩ (fun k => hi (op.symm.trans k)) value
          exact (congrArg ManagementPort.listening mgmt).trans hs.2
      · cases refused (outside hi inRange)
  · have k := refused (exec_unknownItem hs (Option.isNone_iff_eq_none.mp hw) index)
    split at k <;> cases k

end Sys2Proof.Machine

/-! PROOFS. The inspection commands: their results, byte by byte (R26, R163, R171, R173, R175). -/

namespace Sys2Proof.Machine

/-! ## Items and blocks that are named -/

section
variable {s : State} {item index : Byte} {v : List Byte}

theorem globalValue_some (h : s.globalValue item = some v) :
    (1 ≤ item.toNat ∧ item.toNat ≤ 6) ∧ settingValueBytes item = some v.length := by
  unfold State.globalValue at h
  unfold settingValueBytes
  split at h <;> cases h
  all_goals (rename_i number; rw [number]; exact ⟨by decide, rfl⟩)

theorem globalValue_none (h : s.globalValue item = none) : ¬ (1 ≤ item.toNat ∧ item.toNat ≤ 6) := by
  unfold State.globalValue at h
  split at h <;> cases h
  simp only [imp_false] at *
  omega

theorem groupValue_some {g : Group} (h : g.itemValue item = some v) :
    (16 ≤ item.toNat ∧ item.toNat ≤ 24) ∧ settingValueBytes item = some v.length := by
  unfold Group.itemValue at h
  unfold settingValueBytes
  split at h <;> cases h
  all_goals (rename_i number; rw [number]; exact ⟨by decide, rfl⟩)

theorem groupValue_none {g : Group} (h : g.itemValue item = none) : ¬ (16 ≤ item.toNat ∧ item.toNat ≤ 24) := by
  unfold Group.itemValue at h
  split at h <;> cases h
  simp only [imp_false] at *
  omega

theorem channelValue_some {ch : Channel} (h : ch.itemValue item = some v) :
    (32 ≤ item.toNat ∧ item.toNat ≤ 38) ∧ settingValueBytes item = some v.length := by
  unfold Channel.itemValue at h
  unfold settingValueBytes
  split at h <;> cases h
  all_goals (rename_i number; rw [number]; exact ⟨by decide, by simp [byteBool]⟩)

theorem channelValue_none {ch : Channel} (h : ch.itemValue item = none) : ¬ (32 ≤ item.toNat ∧ item.toNat ≤ 38) := by
  unfold Channel.itemValue at h
  split at h <;> cases h
  simp only [imp_false] at *
  omega

/-- An item in the range of the settings table with an index in its range. -/
def Readable (item index : Byte) : Prop :=
  (1 ≤ item.toNat ∧ item.toNat ≤ 6 ∧ index = 0) ∨
    ((16 ≤ item.toNat ∧ item.toNat ≤ 24 ∨ 32 ≤ item.toNat ∧ item.toNat ≤ 38) ∧ index.toNat < 4)

theorem settingValue_some (h : s.settingValue item index = some v) :
    Readable item index ∧ settingValueBytes item = some v.length := by
  unfold State.settingValue at h
  split at h
  · rename_i x hx
    split at h
    · rename_i h0
      obtain rfl := Option.some.inj h
      obtain ⟨⟨lo, hi⟩, length⟩ := globalValue_some hx
      exact ⟨.inl ⟨lo, hi, h0⟩, length⟩
    · cases h
  · split at h
    · rename_i n hn
      have small : index.toNat < 4 := argBelow_some.mp hn ▸ n.isLt
      rcases Option.or_eq_some_iff.mp h with k | ⟨-, k⟩
      · exact ⟨.inr ⟨.inl (groupValue_some k).1, small⟩, (groupValue_some k).2⟩
      · exact ⟨.inr ⟨.inr (channelValue_some k).1, small⟩, (channelValue_some k).2⟩
    · cases h

theorem settingValue_none (h : s.settingValue item index = none) : ¬ Readable item index := by
  unfold State.settingValue at h
  split at h
  · rename_i x hx
    obtain ⟨range, -⟩ := globalValue_some hx
    split at h
    · cases h
    · rename_i h0
      rintro (⟨-, -, k⟩ | ⟨k, -⟩)
      · exact h0 k
      · omega
  · rename_i hx
    have notGlobal := globalValue_none hx
    rintro (⟨lo, hi, -⟩ | ⟨k, small⟩)
    · exact notGlobal ⟨lo, hi⟩
    · rw [show argBelow 4 index = some ⟨index.toNat, small⟩ from argBelow_some.mpr rfl] at h
      obtain ⟨noGroup, noChannel⟩ := Option.or_eq_none_iff.mp h
      exact k.elim (groupValue_none noGroup) (channelValue_none noChannel)

end

theorem report_isSome (s : State) (b : Byte) : (s.report b).isSome = true ↔ b.toNat ≤ 9 := by
  unfold State.report
  split <;> simp_all
  omega

theorem not_lt_of_argBelow_none {n : Nat} {b : Byte} (h : argBelow n b = none) : ¬ b.toNat < n := fun small => by
  rw [show argBelow n b = some ⟨b.toNat, small⟩ from argBelow_some.mpr rfl] at h
  cases h

/-! ## Lengths -/

theorem length_optionally {n : Nat} {o : Option (List Byte)} (h : ∀ l, o = some l → l.length = n) :
    (optionally n o).length = n + 1 := by
  cases o with
  | none => simp [optionally]
  | some l => simp [optionally, h l rfl]

theorem length_windowBytes (w : Window) : w.bytes.length = 20 := by
  unfold Window.bytes
  simp only [List.length_append, length_bytesLE]
  rw [length_optionally, length_optionally, length_optionally]
  · rfl
  all_goals
    intro l h
    obtain ⟨x, -, rfl⟩ := Option.map_eq_some_iff.mp h
    rfl

theorem length_generationBytes (g : Generation) : g.bytes.length = 3 := by
  cases g <;> rfl

theorem length_entryBytes (s : State) (i : PoolIndex) : (s.entryBytes i).length = 22 := by
  unfold State.entryBytes
  split
  · rfl
  · simp only [List.length_append, length_bytesLE, length_bytesWord, length_generationBytes, Vector.length_toList]
    rfl

/-! ## READ_ENTRY -/

theorem byteOf_zero (v : BitVec 16) : byteOf v 0 = v.setWidth 8 := BitVec.eq_of_toNat_eq (by
  rw [byteOf_toNat, BitVec.toNat_setWidth, Nat.mul_zero, Nat.pow_zero, Nat.div_one])

theorem byteOf_one (v : BitVec 16) : byteOf v 1 = (v >>> 8).setWidth 8 := BitVec.eq_of_toNat_eq (by
  rw [byteOf_toNat, BitVec.toNat_setWidth, BitVec.toNat_ushiftRight, Nat.shiftRight_eq_div_pow])

/-- An entry's place in its list, where the list is taken apart at it. -/
theorem listPosition_eq {s : State} {i : PoolIndex} {e : Entry} {pre post : List PoolIndex} (fresh : i ∉ pre)
    (h : (if e.state = .staged then (s.group e.group).openList else (s.group e.group).drainList) = pre ++ i :: post) :
    s.listPosition i e = pre.length := by
  have place : (pre ++ i :: post).idxOf i = pre.length := by
    rw [List.idxOf_append_of_notMem fresh, List.idxOf_cons_self, Nat.add_zero]
  rw [← place, ← h]
  unfold State.listPosition
  cases e.state <;> rfl

/-- The bytes of READ_ENTRY one after another (R175). -/
theorem entryBytes_of_some {s : State} {i : PoolIndex} {e : Entry} (h : s.entry i = some e) :
    s.entryBytes i = e.state.code :: (bytesWord e.word ++ e.mask :: ((Lanes.masked e.mask e.data).toList ++
      BitVec.ofNat 8 e.group.val :: (e.gen.bytes ++ [e.contributors.setWidth 8, e.count,
        BitVec.ofNat 8 (s.listPosition i e)]))) := by
  have contributors : bytesLE 1 e.contributors = [e.contributors.setWidth 8] :=
    congrArg (fun b => [b]) (BitVec.eq_of_toNat_eq (by
      rw [byteOf_toNat, BitVec.toNat_setWidth, Nat.mul_zero, Nat.pow_zero, Nat.div_one]))
  unfold State.entryBytes
  rw [h]
  change [e.state.code] ++ bytesWord e.word ++ [e.mask] ++ (Lanes.masked e.mask e.data).toList ++ byteNat e.group.val ++
    e.gen.bytes ++ bytesLE 1 e.contributors ++ [e.count] ++ byteNat (s.listPosition i e) = _
  rw [contributors]
  simp [byteNat]

theorem readEntry_layout {s : State} {i : PoolIndex} {e : Entry} (h : s.entry i = some e) :
    (s.entryBytes i)[0]? = some e.state.code ∧
    (∀ k < 5, (s.entryBytes i)[1 + k]? = some (BitVec.ofNat 8 (e.word.toNat * 8 / 256 ^ k))) ∧
    (s.entryBytes i)[6]? = some e.mask ∧
    (∀ k : Fin 8, (s.entryBytes i)[7 + k.val]? = some (if e.mask.getLsbD k then e.data[k] else 0)) ∧
    (s.entryBytes i)[15]? = some (BitVec.ofNat 8 e.group.val) ∧
    (∀ k < 3, (s.entryBytes i)[16 + k]? = e.gen.bytes[k]?) ∧
    (s.entryBytes i)[19]? = some (e.contributors.setWidth 8) ∧ (s.entryBytes i)[20]? = some e.count ∧
    (s.entryBytes i)[21]? = some (BitVec.ofNat 8 (s.listPosition i e)) := by
  have word : bytesWord e.word = [0, 1, 2, 3, 4].map fun k => BitVec.ofNat 8 (e.word.toNat * 8 / 256 ^ k) := by
    rw [bytesWord_eq_map, Nat.mul_comm]
    rfl
  have data : (Lanes.masked e.mask e.data).toList =
      [0, 1, 2, 3, 4, 5, 6, 7].map fun k : Fin 8 => if e.mask.getLsbD k then e.data[k] else 0 := by
    rw [Lanes.masked_eq, Vector.toList_ofFn, List.ofFn_eq_map]
    rfl
  obtain ⟨g0, g1, g2, gen⟩ : ∃ g0 g1 g2, e.gen.bytes = [g0, g1, g2] := by
    cases e.gen <;> exact ⟨_, _, _, rfl⟩
  rw [entryBytes_of_some h, word, data, gen]
  refine ⟨rfl, fun k hk => ?_, rfl, fun k => ?_, rfl, fun k hk => ?_, rfl, rfl, rfl⟩
  · interval_cases k <;> rfl
  · fin_cases k <;> rfl
  · interval_cases k <;> rfl

/-- Settles O12: each command is heard, and its result is the report, the entry, the window or the value it names. -/
theorem inspectionShowsAndChangesNothing : Obligations.InspectionShowsAndChangesNothing := by
  refine ⟨rfl, fun s hs => ⟨?_, fun hi => ?_, fun b => ?_, fun hi i => ?_, fun hi w => ?_, fun hi item index => ?_⟩,
    fun s i hs hi => ?_⟩
  · simp only [exec, execReadStatus]
    rw [State.hearing_of_listening hs.1 hs.2]
    rfl
  · rw [exec_getSetting_of_value hs hi (settingValue_global (item := 3) rfl), bytesLE_two, byteOf_zero, byteOf_one]
  · simp only [exec, execReadStatus]
    rw [State.hearing_of_listening hs.1 hs.2, ← report_isSome s b]
    cases s.report b with
    | none => exact ⟨_, rfl, by simp⟩
    | some bytes => exact ⟨_, rfl, by simp⟩
  · simp only [exec, execReadEntry]
    rw [State.hearing_of_listening hs.1 hs.2, State.unlessInit_of_ne hi]
    cases h : argBelow 64 i with
    | none => exact ⟨_, rfl, rfl, iff_of_false ResultCode.noConfusion (not_lt_of_argBelow_none h)⟩
    | some n => exact ⟨_, rfl, length_entryBytes s n, by simp [← argBelow_some.mp h]⟩
  · simp only [exec, execReadWindow]
    rw [State.hearing_of_listening hs.1 hs.2, State.unlessInit_of_ne hi]
    cases h : argBelow 8 w with
    | none => exact ⟨_, rfl, rfl, iff_of_false ResultCode.noConfusion (not_lt_of_argBelow_none h)⟩
    | some n => exact ⟨_, rfl, length_windowBytes _, by simp [← argBelow_some.mp h]⟩
  · cases h : s.settingValue item index with
    | none =>
      simp only [exec, execGetSetting]
      rw [State.hearing_of_listening hs.1 hs.2, State.unlessInit_of_ne hi, h]
      exact ⟨_, rfl, List.length_replicate, iff_of_false ResultCode.noConfusion (settingValue_none h)⟩
    | some v =>
      obtain ⟨readable, length⟩ := settingValue_some h
      exact ⟨_, exec_getSetting_of_value hs hi h, by rw [length]; rfl, iff_of_true rfl readable⟩
  · refine ⟨s.entryBytes i, ?_, fun h => ?_, fun e h => ?_⟩
    · simp only [exec, execReadEntry]
      rw [State.hearing_of_listening hs.1 hs.2, State.unlessInit_of_ne hi, argBelow_ofNat (by decide) i]
      rfl
    · unfold State.entryBytes
      rw [h]
    · obtain ⟨state, word, mask, data, group, gen, contributors, count, place⟩ := readEntry_layout h
      refine ⟨length_entryBytes s i, state, word, mask, data, group, fun hg => ?_, fun n hg => ?_, contributors, count,
        fun pre post fresh list => by rw [place, listPosition_eq fresh list]⟩
      · rw [hg] at gen
        exact ⟨gen 0 (by decide), gen 1 (by decide), gen 2 (by decide)⟩
      · rw [hg] at gen
        exact ⟨gen 0 (by decide), (gen 1 (by decide)).trans (congrArg some (byteOf_zero n)),
          (gen 2 (by decide)).trans (congrArg some (byteOf_one n))⟩

end Sys2Proof.Machine

/-! PROOFS. The reports of the status tables, item by item (R45, R67, R99, R116, R132, R151, R173, R174). -/

namespace Sys2Proof.Machine

/-! ## The result bytes as numbers, flags and items that may be absent (R169) -/

theorem append_congr {α : Type} {a a' b b' : List α} (ha : a = a') (hb : b = b') : a ++ b = a' ++ b' := by rw [ha, hb]

theorem bytesLE_number {w : Nat} (n : Nat) (x : BitVec w) : bytesLE n x = numberBytes n x.toNat := bytesLE_eq_map n x

theorem byteNat_number (n : Nat) : byteNat n = numberBytes 1 n := by simp [byteNat, numberBytes]

theorem byteBool_flag (b : Bool) : byteBool b = [flagByte b] := rfl

theorem bytesWord_number (w : WordIndex) : bytesWord w = numberBytes 5 (8 * w.toNat) := bytesWord_eq_map w

theorem bytesStamp_eq (t : Stamp) : bytesStamp t = stampBytes t := by
  unfold bytesStamp stampBytes
  rw [bytesLE_number, bytesLE_number, byteBool_flag]

theorem optionally_eq (n : Nat) {o o' : Option (List Byte)} (h : o = o') : optionally n o = presentBytes n o' := by
  rw [h]
  cases o' <;> rfl

theorem map_congr_some {α β : Type} {f g : α → β} (h : ∀ x, f x = g x) (o : Option α) : o.map f = o.map g :=
  congrArg (o.map ·) (funext h)

theorem countedList_eq {α : Type} (l : List α) (f : α → List Byte) :
    countedList (l.map f) = numberBytes 1 l.length ++ l.flatMap f := by
  unfold countedList
  rw [List.length_map, byteNat_number, List.flatMap_def]

/-- The counts of a table, four bytes each. -/
theorem counts_eq (l : List Count) : (l.map (bytesLE 4)).flatten = l.flatMap fun n => numberBytes 4 n.toNat := by
  rw [← List.flatMap_def]
  exact congrArg (l.flatMap ·) (funext (bytesLE_number 4))

/-- Remaining microseconds of a limit fit in two bytes. -/
theorem remaining_number (limit : BitVec 12) (n : Nat) :
    bytesLE 2 (BitVec.ofNat 16 (limit.toNat - n)) = numberBytes 2 (limit.toNat - n) := by
  have := limit.isLt
  rw [bytesLE_number, BitVec.toNat_ofNat, Nat.mod_eq_of_lt (by omega)]

/-! ## A set as a byte (R169) -/

theorem testBit_sum_finRange {n : Nat} (f : Fin n → Bool) (j : Fin n) :
    ((List.finRange n).map fun i => if f i then 2 ^ i.val else 0).sum.testBit j.val = f j := by
  induction n with
  | zero => exact j.elim0
  | succ n ih =>
    have split : ((List.finRange (n + 1)).map fun i => if f i then 2 ^ i.val else 0).sum =
        2 * ((List.finRange n).map fun i => if f i.succ then 2 ^ i.val else 0).sum + (f 0).toNat := by
      rw [List.finRange_succ, List.map_cons, List.sum_cons, List.map_map, ← List.sum_map_mul_left, Nat.add_comm]
      congr 1
      · congr 2
        funext i
        simp only [Function.comp, Fin.val_succ]
        split <;> simp [Nat.pow_succ, Nat.mul_comm]
      · cases f 0 <;> rfl
    rw [split]
    refine Fin.cases ?_ (fun k => ?_) j
    · cases f 0 <;> simp
    · rw [Fin.val_succ, ← ih fun i => f i.succ]
      rw [Nat.testBit_succ]
      congr 1
      cases f 0 <;> simp
      omega

/-- A set of eight written bit by bit. -/
theorem setByte_eight (f : Fin 8 → Bool) : ∃ b : Byte, setByte 8 f = [b] ∧ ∀ w : Fin 8, b.getLsbD w.val = f w := by
  refine ⟨_, rfl, fun w => ?_⟩
  rw [BitVec.getLsbD_ofNat, testBit_sum_finRange, decide_eq_true w.isLt, Bool.true_and]

/-! ## The windows -/

theorem Window.bytes_eq (w : Window) : w.bytes = [flagByte w.enabled] ++ numberBytes 5 w.base.toNat ++
    numberBytes 5 w.limit.toNat ++ numberBytes 1 w.ports.toNat ++
    ([w.cls.code] ++ optionally 1 (w.cls.group.map fun g => byteNat g.val) ++
      optionally 1 (w.cls.view.map fun v => [v.code])) ++
    presentBytes 1 (w.channel.map fun c => numberBytes 1 c.val) ++ numberBytes 1 w.passage := by
  unfold Window.bytes
  rw [bytesLE_number, bytesLE_number, bytesLE_number, byteBool_flag, ← byteNat_number w.passage,
    optionally_eq 1 (map_congr_some (fun c : ChannelId => byteNat_number c.val) w.channel)]
  simp only [List.append_assoc]

theorem exec_readWindow_of_number {s : State} (hs : s.takesFrames) (hi : s.op ≠ .init) (w : WindowId) :
    exec (.readWindow (BitVec.ofNat 8 w.val)) s = .next (s.reply .accepted (s.window w).bytes) := by
  simp only [exec, execReadWindow]
  rw [State.hearing_of_listening hs.1 hs.2, State.unlessInit_of_ne hi, argBelow_ofNat (by decide) w]

/-! ## The ports -/

theorem QueuedRequest.bytes_eq (q : QueuedRequest) : q.bytes = [accessCode q.request.kind] ++
    numberBytes 1 q.request.tag.toNat ++ numberBytes 5 (8 * q.request.word.toNat) ++ [q.progress.code] := by
  unfold QueuedRequest.bytes
  rw [bytesLE_number, bytesWord_number]

theorem ErrorRecord.bytes_eq (e : ErrorRecord) : e.bytes = [e.reason.code, accessCode e.kind] ++
    numberBytes 5 (8 * e.word.toNat) ++ numberBytes 1 e.tag.toNat ++ stampBytes e.stamp := by
  unfold ErrorRecord.bytes
  rw [bytesLE_number, bytesWord_number, bytesStamp_eq]

/-- The report of a port, the head's item apart (R116). -/
theorem State.portReport_eq (s : State) (p : Port) : s.portReport p =
    numberBytes 1 (s.port p).queue.length ++ numberBytes 1 (s.port p).queue.length ++
      (s.port p).queue.flatMap QueuedRequest.bytes ++ s.headItem p ++ s.holdItem p ++
      presentBytes 15 ((s.port p).lastError.map ErrorRecord.bytes) ++ (s.port p).counts.bytes := by
  unfold State.portReport
  rw [countedList_eq, byteNat_number, optionally_eq 15 rfl]
  simp only [List.append_assoc]

theorem State.headItem_of_head {s : State} {p : Port} {r : BusRequest} {cls : Classification} {place : HeadPlace}
    (h : s.head p = some ⟨r, .head cls place⟩) : s.headItem p =
      [1, cls.code] ++ presentBytes 1 (cls.window.map fun w => numberBytes 1 w.val) ++ [place.code] := by
  unfold State.headItem
  rw [h]
  dsimp only
  rw [optionally_eq 1 (map_congr_some (fun w : WindowId => byteNat_number w.val) cls.window)]
  rfl

theorem State.headItem_of_none {s : State} {p : Port} (h : ∀ r cls place, s.head p ≠ some ⟨r, .head cls place⟩) :
    s.headItem p = [0, 0, 0, 0, 0] := by
  unfold State.headItem
  split
  · rename_i r cls place e
    exact absurd e (h r cls place)
  · rfl

theorem State.holdItem_eq (s : State) (p : Port) : s.holdItem p =
    presentBytes 8 ((s.holds.find? fun h => decide (h.port = p)).map fun h =>
      numberBytes 1 h.group.val ++ numberBytes 4 (s.tb.usClock - h.since).toNat ++
        presentBytes 2 (if h.limit = 0 then none
          else some (numberBytes 2 (h.limit.toNat - (s.tb.usClock - h.since).toNat)))) := by
  refine optionally_eq 8 (map_congr_some (fun h => ?_) _)
  rw [byteNat_number, bytesLE_number]
  refine append_congr rfl (optionally_eq 2 ?_)
  split
  · rfl
  · exact congrArg some (remaining_number _ _)

/-! ## The drain engine -/

theorem State.drainItem_eq (s : State) (d : Drain) : s.drainItem d =
    numberBytes 1 d.group.val ++ numberBytes 2 d.sequence.toNat ++ [d.phase.code] ++
      numberBytes 1 (s.group d.group).drainList.length ++ numberBytes 1 d.outstanding ++ [flagByte d.late] ++
      presentBytes 2 (if d.budget = 0 ∨ d.budget.toNat ≤ (s.tb.usClock - d.moment).toNat ∨ d.late = true then none
        else some (numberBytes 2 (d.budget.toNat - (s.tb.usClock - d.moment).toNat))) := by
  unfold State.drainItem
  rw [byteNat_number, byteNat_number, byteNat_number, bytesLE_number]
  refine append_congr rfl (optionally_eq 2 ?_)
  have same : (d.budget = 0 ∨ d.late = true ∨ s.budgetExpired d = true) ↔
      (d.budget = 0 ∨ d.budget.toNat ≤ (s.tb.usClock - d.moment).toNat ∨ d.late = true) := by
    unfold State.budgetExpired State.microsecondsSince
    rw [decide_eq_true_iff]
    tauto
  unfold State.budgetRemaining
  by_cases h : d.budget = 0 ∨ d.budget.toNat ≤ (s.tb.usClock - d.moment).toNat ∨ d.late = true
  · rw [if_pos h, if_pos (same.mpr h)]
    rfl
  · rw [if_neg h, if_neg (mt same.mp h)]
    exact congrArg some (remaining_number _ _)

theorem commitBusyCode_eq (b : Bool) : commitBusyCode b = flagByte (!b) := by cases b <;> rfl

/-- The report of the bridge, its two sets apart (R67, R99). -/
theorem State.bridgeReport_eq (s : State) {enabled staged : Byte}
    (he : setByte 8 (fun w => (s.window w).enabled) = [enabled])
    (hp : setByte 8 (fun w => (s.window w).enabled && decide ((s.window w).cls ≠ .pass)) = [staged]) : s.bridgeReport =
    [s.op.code, enabled, staged] ++ numberBytes 1 ((List.finRange 8).map fun w => (s.window w).passage).sum ++
      numberBytes 1 s.drain.queue.length ++ s.drain.queue.flatMap s.drainItem ++
      numberBytes 1 s.drain.leftovers.length ++ [flagByte (!s.drain.commitBusy), flagByte s.arb.escalated] ++
      numberBytes 1 s.arb.outstanding.length ++ s.arb.outstanding.map (·.owner.code) ++
      [s.arb.pointer.code, s.arb.policy.code] ++ numberBytes 2 s.mgmt.frameErrors.toNat := by
  have owners : (s.arb.outstanding.flatMap fun o => [o.owner.code]) = s.arb.outstanding.map (·.owner.code) :=
    List.map_eq_flatMap.symm
  unfold State.bridgeReport State.windowItems State.drainItems
  rw [he, hp, countedList_eq, countedList_eq, byteNat_number, byteNat_number, bytesLE_number, commitBusyCode_eq, byteBool_flag,
    owners]
  simp only [List.append_assoc, List.cons_append, List.nil_append]

/-! ## The groups -/

theorem Group.state_code (x : Group) : x.state.code =
    if x.drainList = [] then if x.openList = [] then if x.enabled = true then 1 else 0 else 2
      else if x.openList = [] then 3 else 4 := by
  unfold Group.state
  cases x.openList <;> cases x.drainList <;> simp <;> cases x.enabled <;> rfl

/-- A draining generation has the sequence of its group's last commit, where pool and lists agree (R5, R40). -/
theorem State.drainingSequence_eq {s : State} (h : s.listsAgree) (g : GroupId) : s.drainingSequence g =
    if (s.group g).drainList = [] then none else some (s.group g).sequence := by
  have lists := s.listsAgree_iff.mp h
  unfold State.drainingSequence
  cases hl : (s.group g).drainList with
  | nil => rfl
  | cons i rest =>
    have mem : i ∈ s.stage.drainList g := by
      change i ∈ (s.group g).drainList
      rw [hl]
      exact List.mem_cons_self
    obtain ⟨e, he, gen⟩ : ∃ e, s.entry i = some e ∧ e.gen = .draining (s.group g).sequence := by
      rcases lists.drained.mp mem with m | m <;>
        (obtain ⟨e, he, -, -, gen⟩ := State.mark_stage.mp m; exact ⟨e, he, gen⟩)
    dsimp only
    rw [he]
    dsimp only
    rw [gen, if_neg (List.cons_ne_nil _ _)]

theorem State.groupReport_eq {s : State} (h : s.listsAgree) (g : GroupId) : s.groupReport g =
    [(s.group g).state.code] ++ numberBytes 2 (s.group g).sequence.toNat ++
      presentBytes 2 (if (s.group g).drainList = [] then none else some (numberBytes 2 (s.group g).sequence.toNat)) ++
      numberBytes 1 (s.group g).openList.length ++ numberBytes 1 (s.group g).drainList.length ++
      presentBytes 7 ((s.group g).lastCommit.map stampBytes) ++
      presentBytes 5 ((s.group g).firstFault.map fun w => numberBytes 5 (8 * w.toNat)) ++
      numberBytes 2 (s.group g).slotOffset.toNat ++
      presentBytes 2 ((s.group g).pendingOffset.map fun v => numberBytes 2 v.toNat) ++
      [flagByte (s.group g).outOfRange, (s.group g).trigger.code, (s.group g).mode.code, (s.group g).policy.code,
        (s.group g).entryLimit] ++
      numberBytes 2 (s.group g).holdLimit.toNat ++ numberBytes 2 (s.group g).drainBudget.toNat ++
      [flagByte (s.group g).logCommits] ++ (s.group g).counts.bytes := by
  have sequence : optionally 2 ((s.drainingSequence g).map (bytesLE 2)) = presentBytes 2
      (if (s.group g).drainList = [] then none else some (numberBytes 2 (s.group g).sequence.toNat)) := by
    refine optionally_eq 2 ?_
    rw [State.drainingSequence_eq h, ← bytesLE_number]
    split <;> rfl
  unfold State.groupReport
  dsimp only
  rw [sequence, optionally_eq 7 (map_congr_some bytesStamp_eq _), optionally_eq 5 (map_congr_some bytesWord_number _),
    optionally_eq 2 (map_congr_some (bytesLE_number 2) _), bytesLE_number, bytesLE_number, bytesLE_number, bytesLE_number,
    byteNat_number, byteNat_number, byteBool_flag, byteBool_flag]
  simp only [List.append_assoc, List.cons_append, List.nil_append]

/-! ## The timebase and the capture unit -/

theorem State.timebaseReport_eq (s : State) : s.timebaseReport =
    [flagByte s.tb.running] ++ numberBytes 2 s.tb.counter.toNat ++ numberBytes 4 s.tb.cycle.toNat ++
      numberBytes 2 s.tb.period.toNat ++ presentBytes 2 (s.tb.pendingPeriod.map fun v => numberBytes 2 v.toNat) ++
      [s.tb.prescale] ++ presentBytes 1 (s.tb.pendingPrescale.map fun v => [v]) ++
      [flagByte s.tb.syncEnable, s.tb.refFreq] ++ numberBytes 4 s.tb.truncated.toNat ++
      numberBytes 4 s.tb.usClock.toNat := by
  unfold State.timebaseReport
  rw [optionally_eq 2 (map_congr_some (bytesLE_number 2) _), optionally_eq 1 rfl, bytesLE_number, bytesLE_number,
    bytesLE_number, bytesLE_number, bytesLE_number, byteBool_flag, byteBool_flag]
  simp only [List.append_assoc, List.cons_append, List.nil_append]

theorem Channel.bytes_eq (x : Channel) : x.bytes =
    [x.state.code, x.prescaleCount] ++ numberBytes 2 x.skipCount.toNat ++ numberBytes 4 x.hits.toNat ++
      numberBytes 4 x.qualifying.toNat ++ numberBytes 4 x.produced.toNat ++
      [flagByte (decide (x.state ≠ .off)), x.direction.code, x.prescale, flagByte x.gate, flagByte x.rearmAtWrap] ++
      x.matchValue.toList ++ x.matchMask.toList ++ [flagByte x.recordData] := by
  unfold Channel.bytes
  rw [bytesLE_number, bytesLE_number, bytesLE_number, bytesLE_number, byteBool_flag, byteBool_flag, byteBool_flag,
    byteBool_flag]
  simp only [List.append_assoc, List.cons_append, List.nil_append]
  rfl

theorem State.captureReport_eq (s : State) : s.captureReport =
    numberBytes 1 s.cap.queue.length ++ [s.cap.threshold, s.cap.lost] ++
      presentBytes 1 (s.cap.queue.head?.map fun r => [r.record.kindCode]) ++
      [(0 : ChannelId), 1, 2, 3].flatMap fun c => (s.channel c).bytes := by
  unfold State.captureReport
  rw [byteNat_number, optionally_eq 1 rfl, List.flatMap_def]
  rfl

theorem exec_readStatus_of_report {s : State} (hs : s.takesFrames) {b : Byte} {l l' : List Byte} (h : s.report b = some l)
    (e : l = l') : exec (.readStatus b) s = .next (s.reply .accepted l') := by
  simp only [exec, execReadStatus]
  rw [State.hearing_of_listening hs.1 hs.2, h, e]

/-- Settles O14: every report is its items one after another, and each item as the status tables lay it out. -/
theorem reportsShowTheState : Obligations.ReportsShowTheState := by
  refine ⟨by decide, fun s hs => ?_, fun s p hs => ?_, fun s g hs h => ?_, fun s hs => ⟨?_, ?_⟩, fun s w hs hi => ?_⟩
  · obtain ⟨enabled, he, bits⟩ := setByte_eight fun w => (s.window w).enabled
    obtain ⟨staged, hp, bits'⟩ := setByte_eight fun w => (s.window w).enabled && decide ((s.window w).cls ≠ .pass)
    refine ⟨enabled, staged, fun w => ⟨bits w, bits' w⟩,
      exec_readStatus_of_report hs rfl ((s.bridgeReport_eq he hp).trans ?_)⟩
    refine append_congr (append_congr (append_congr (append_congr (append_congr (append_congr
      (append_congr rfl ?_) rfl) rfl) rfl) ?_) rfl) rfl
    · exact congrArg (s.drain.queue.flatMap ·) (funext s.drainItem_eq)
    · rfl
  · refine exec_readStatus_of_report hs (l := s.portReport p) (by cases p <;> rfl) ((s.portReport_eq p).trans ?_)
    refine append_congr (append_congr (append_congr (append_congr (append_congr rfl ?_) ?_) (s.holdItem_eq p))
      (congrArg (presentBytes 15) (map_congr_some ErrorRecord.bytes_eq _))) (counts_eq _)
    · exact congrArg ((s.port p).queue.flatMap ·) (funext QueuedRequest.bytes_eq)
    · split
      · rename_i r cls place h
        rw [State.headItem_of_head h]
        rfl
      · rename_i other
        exact State.headItem_of_none other
  · refine exec_readStatus_of_report hs (l := s.groupReport g) (by fin_cases g <;> rfl) ((State.groupReport_eq h g).trans ?_)
    rw [Group.state_code, GroupCounts.bytes, counts_eq]
  · exact exec_readStatus_of_report hs rfl s.timebaseReport_eq
  · refine exec_readStatus_of_report hs rfl (s.captureReport_eq.trans ?_)
    refine append_congr (append_congr rfl (congrArg (presentBytes 1) (map_congr_some (fun r => ?_) _))) ?_
    · cases r.record <;> rfl
    · exact congrArg (List.flatMap · _) (funext fun c => (s.channel c).bytes_eq)
  · refine (exec_readWindow_of_number hs hi w).trans (congrArg (fun l => Host.Outcome.next (s.reply .accepted l))
      ((s.window w).bytes_eq.trans ?_))
    refine append_congr (append_congr (append_congr rfl ?_) rfl) rfl
    cases (s.window w).cls <;> rfl

end Sys2Proof.Machine

/-! PROOFS. A frame decodes to the command it spells, and cut short to none (R166, R167, R172). -/

namespace Sys2Proof.Machine

/-! ## Numbers from their bytes -/

theorem word16_bytes (v : BitVec 16) : word16 (byteOf v 0) (byteOf v 1) = v := by
  unfold word16 byteOf
  grind

theorem word24_bytes (v : BitVec 24) : word24 (byteOf v 0) (byteOf v 1) (byteOf v 2) = v := by
  unfold word24 byteOf
  grind

theorem word40_bytes (v : BitVec 40) :
    word40 (byteOf v 0) (byteOf v 1) (byteOf v 2) (byteOf v 3) (byteOf v 4) = v := by
  unfold word40 byteOf
  grind

theorem Lanes.toList_eq (v : Lanes) : v.toList = [v[0], v[1], v[2], v[3], v[4], v[5], v[6], v[7]] :=
  List.ext_getElem (by simp) fun n h _ => by
    rw [Vector.length_toList] at h
    interval_cases n <;> rfl

theorem Lanes.ofList_eq (v : Lanes) : #v[v[0], v[1], v[2], v[3], v[4], v[5], v[6], v[7]] = v := by
  ext n h
  interval_cases n <;> rfl

/-! ## The two rows that name nothing -/

theorem decodeFrame_unnamed {command : Byte} (h : namesCommand command = false) (after : List Byte) :
    decodeFrame (command :: after) = some (.unknownCommand command) := by
  unfold namesCommand at h
  have out := of_decide_eq_false h
  unfold decodeFrame
  dsimp only
  split
  case h_21 =>
    unfold namesCommand
    rw [h]
    rfl
  all_goals omega

theorem decodePutSetting_unknown {item : Byte} (h : settingValueBytes item = none) (index : Byte) (value : List Byte) :
    decodePutSetting item index value = some (.putSettingUnknownItem item index) := by
  have known := h
  unfold settingValueBytes at h
  unfold decodePutSetting
  split
  case h_23 => rw [known]
  all_goals (rename_i number; rw [number] at h; cases h)

/-! ## Every row -/

theorem decode_encode {c : Instr} {bytes : List Byte} (hw : c.wellFormed = true) (h : encodeFrame c = some bytes)
    (after : List Byte) : decodeFrame (bytes ++ after) = some c := by
  cases c with
  | unknownCommand command => cases h; exact decodeFrame_unnamed (by simpa [Instr.wellFormed] using hw) after
  | putSettingUnknownItem item index =>
    cases h
    exact decodePutSetting_unknown (Option.isNone_iff_eq_none.mp hw) index after
  | putSettingPeriod i v => cases h; exact congrArg (fun x => some (Instr.putSettingPeriod i x)) (word16_bytes v)
  | putSettingSlotOffset i v => cases h; exact congrArg (fun x => some (Instr.putSettingSlotOffset i x)) (word16_bytes v)
  | putSettingHoldLimit i v => cases h; exact congrArg (fun x => some (Instr.putSettingHoldLimit i x)) (word16_bytes v)
  | putSettingDrainBudget i v => cases h; exact congrArg (fun x => some (Instr.putSettingDrainBudget i x)) (word16_bytes v)
  | putSettingMatch i value mask =>
    rw [← Lanes.ofList_eq value, ← Lanes.ofList_eq mask] at h ⊢
    cases h
    rfl
  | putWindow w base limit ps cls g v cp cc =>
    cases h
    exact congrArg₂ (fun x y => some (Instr.putWindow w x y ps cls g v cp cc)) (word40_bytes base) (word40_bytes limit)
  | clearCauses v => cases h; exact congrArg (fun x => some (Instr.clearCauses x)) (word24_bytes v)
  | setEnables v => cases h; exact congrArg (fun x => some (Instr.setEnables x)) (word24_bytes v)
  | resetNAssert | resetNRelease | initComplete | usClockAdvance | counterStep | naturalWrap | syncInEdge | commitInEdge
  | holdLimitExpiry | drainBudgetExpiry | requestAccept | stagedWritePlacement | grant | memoryResponse | responseTaken
  | partialFrame => cases h
  | _ =>
    cases h
    rfl

/-- A frame cut short spells no command yet. -/
theorem decode_short {c : Instr} {bytes : List Byte} (hw : c.wellFormed = true) (h : encodeFrame c = some bytes) {k : Nat}
    (hk : k < bytes.length) : decodeFrame (bytes.take k) = none := by
  cases c with
  | resetNAssert | resetNRelease | initComplete | usClockAdvance | counterStep | naturalWrap | syncInEdge | commitInEdge
  | holdLimitExpiry | drainBudgetExpiry | requestAccept | stagedWritePlacement | grant | memoryResponse | responseTaken
  | partialFrame => cases h
  | putSettingMatch i value mask =>
    rw [← Lanes.ofList_eq value, ← Lanes.ofList_eq mask] at h
    cases h
    have bound : k < 19 := hk
    interval_cases k <;> rfl
  | _ =>
    cases h
    simp only [List.length_append, List.length_cons, List.length_nil, Nat.zero_add, Nat.reduceAdd] at hk
    interval_cases k <;> rfl

end Sys2Proof.Machine

/-! PROOFS. The pins of the management port: the bits of a frame bring its command to the queue, and SDO carries its result
(R166, R167, R168). -/

namespace Sys2Proof.Machine

/-! ## The bits of a frame cut short -/

theorem length_flatMap_byteBits (bytes : List Byte) : (bytes.flatMap byteBits).length = 8 * bytes.length := by
  induction bytes with
  | nil => rfl
  | cons b bytes ih =>
    rw [List.flatMap_cons, List.length_append, ih, byteBits_length, List.length_cons]
    omega

/-- The first bits of a frame are those of its first bytes and up to seven more. -/
theorem take_bits (bytes : List Byte) (k : Nat) :
    ∃ rest : List Bool, rest.length < 8 ∧
      (bytes.flatMap byteBits).take k = (bytes.take (k / 8)).flatMap byteBits ++ rest := by
  induction bytes generalizing k with
  | nil => exact ⟨[], by decide, by simp⟩
  | cons b bytes ih =>
    by_cases small : k < 8
    · refine ⟨(byteBits b).take k, by simp [small], ?_⟩
      rw [Nat.div_eq_of_lt small, List.flatMap_cons, List.take_append_of_le_length (by rw [byteBits_length]; omega)]
      rfl
    · obtain ⟨rest, short, eq⟩ := ih (k - 8)
      refine ⟨rest, short, ?_⟩
      have more : k / 8 = (k - 8) / 8 + 1 := by omega
      rw [more, List.take_succ_cons, List.flatMap_cons, List.flatMap_cons, List.take_append, byteBits_length,
        List.take_of_length_le (by rw [byteBits_length]; omega), eq, List.append_assoc]

/-- The bytes of a frame cut short are its first bytes. -/
theorem sdiBytes_take (bytes : List Byte) (k : Nat) :
    sdiBytes ((bytes.flatMap byteBits).take k) = bytes.take (k / 8) := by
  obtain ⟨rest, short, eq⟩ := take_bits bytes k
  rw [eq, sdiBytes_flatMap _ _ short]

theorem sdiBytes_bits (bytes : List Byte) : sdiBytes (bytes.flatMap byteBits) = bytes := by
  have := sdiBytes_flatMap bytes [] (by decide)
  rwa [List.append_nil] at this

/-! ## Clocking bits in -/

/-- The pins of a frame in progress. -/
def FramePins.during (bits : List Bool) (falls : Nat) (evaluated : Bool) : FramePins := ⟨true, bits, falls, evaluated⟩

theorem State.sampleBit_of_none {s : State} {b : Bool} (selected : s.selected = true) (h : s.mgmt.pins.evaluated = false)
    (none : decodeFrame (sdiBytes (s.mgmt.pins.bits ++ [b])) = none) :
    s.sampleBit b = s.withPins { s.mgmt.pins with bits := s.mgmt.pins.bits ++ [b] } := by
  unfold State.sampleBit
  rw [if_pos (by rw [selected, h]; rfl)]
  dsimp only
  rw [none]

theorem State.sampleBit_of_some {s : State} {b : Bool} {c : Instr} (selected : s.selected = true)
    (h : s.mgmt.pins.evaluated = false) (some : decodeFrame (sdiBytes (s.mgmt.pins.bits ++ [b])) = some c) :
    s.sampleBit b =
      (s.withPins { s.mgmt.pins with bits := s.mgmt.pins.bits ++ [b], evaluated := true }).enqueue c := by
  unfold State.sampleBit
  rw [if_pos (by rw [selected, h]; rfl)]
  dsimp only
  rw [some]

theorem State.sampleBit_of_evaluated {s : State} (b : Bool) (h : s.mgmt.pins.evaluated = true) : s.sampleBit b = s :=
  if_neg (by simp [h])

theorem State.pinEdge_sckFall {s : State} (selected : s.selected = true) :
    s.pinEdge .sckFall = s.withPins { s.mgmt.pins with falls := s.mgmt.pins.falls + 1 } := if_pos selected

section
variable {s : State} (high : s.resetLow = false)
include high

theorem State.selected_during (bits : List Bool) (falls : Nat) (evaluated : Bool) :
    (s.withPins (.during bits falls evaluated)).selected = true := by
  simp [State.selected, high, FramePins.during]

/-- Bits clocked in that spell no command yet. -/
theorem clockBits_pending (more : List Bool) : ∀ (bits : List Bool) (falls : Nat),
    (∀ k ≤ more.length, decodeFrame (sdiBytes (bits ++ more.take k)) = none) →
    (s.withPins (.during bits falls false)).pinEdges (clockBits more) =
      s.withPins (.during (bits ++ more) (falls + more.length) false) := by
  induction more with
  | nil => intro bits falls _; rw [List.append_nil]; rfl
  | cons b more ih =>
    intro bits falls h
    have first : (s.withPins (.during bits falls false)).sampleBit b = s.withPins (.during (bits ++ [b]) falls false) :=
      State.sampleBit_of_none (s.selected_during high bits falls false) rfl (h 1 (by simp))
    change State.pinEdges (clockBits more) (((s.withPins (.during bits falls false)).sampleBit b).pinEdge .sckFall) = _
    rw [first, State.pinEdge_sckFall (s.selected_during high _ _ _)]
    refine (ih (bits ++ [b]) (falls + 1) fun k hk => ?_).trans ?_
    · have := h (k + 1) (by simpa using hk)
      rwa [List.take_succ_cons, List.append_cons] at this
    · rw [List.append_assoc, List.singleton_append, List.length_cons, Nat.add_assoc, Nat.add_comm 1]

/-- The bit that completes a command brings it to the queue. -/
theorem clockBits_last {bits : List Bool} {b : Bool} {c : Instr} (falls : Nat)
    (h : decodeFrame (sdiBytes (bits ++ [b])) = some c) :
    (s.withPins (.during bits falls false)).pinEdges (clockBits [b]) =
      (s.enqueue c).withPins (.during (bits ++ [b]) (falls + 1) true) := by
  have sampled : (s.withPins (.during bits falls false)).sampleBit b =
      (s.enqueue c).withPins (.during (bits ++ [b]) falls true) :=
    State.sampleBit_of_some (s.selected_during high bits falls false) rfl h
  change ((s.withPins (.during bits falls false)).sampleBit b).pinEdge .sckFall = _
  rw [sampled, State.pinEdge_sckFall ((s.enqueue c).selected_during high _ _ _)]
  rfl

/-- After evaluation SDI is ignored. -/
theorem clockBits_evaluated (bits more : List Bool) : ∀ falls : Nat,
    (s.withPins (.during bits falls true)).pinEdges (clockBits more) =
      s.withPins (.during bits (falls + more.length) true) := by
  induction more with
  | nil => exact fun _ => rfl
  | cons b more ih =>
    intro falls
    change State.pinEdges (clockBits more) (((s.withPins (.during bits falls true)).sampleBit b).pinEdge .sckFall) = _
    rw [State.sampleBit_of_evaluated b rfl, State.pinEdge_sckFall (s.selected_during high _ _ _)]
    refine (ih (falls + 1)).trans ?_
    rw [List.length_cons, Nat.add_assoc, Nat.add_comm 1]

end

theorem clockBits_append (xs ys : List Bool) : clockBits (xs ++ ys) = clockBits xs ++ clockBits ys := List.flatMap_append

theorem decode_whole {c : Instr} {bytes : List Byte} (hw : c.wellFormed = true) (he : encodeFrame c = some bytes) :
    decodeFrame bytes = some c := by
  have whole := decode_encode hw he []
  rwa [List.append_nil] at whole

theorem encode_nonempty {c : Instr} {bytes : List Byte} (hw : c.wellFormed = true) (he : encodeFrame c = some bytes) :
    0 < bytes.length := List.length_pos_iff.mpr (by
  rintro rfl
  cases decode_whole hw he)

section
variable {s : State} (high : s.resetLow = false) (idle : s.mgmt.pins.csLow = false) {c : Instr} {bytes : List Byte}
  (hw : c.wellFormed = true) (he : encodeFrame c = some bytes)
include high idle hw he

/-- A frame cut short at a bit. -/
theorem clocked_short {k : Nat} (hk : k < (bytes.flatMap byteBits).length) :
    s.pinEdges (.csFall :: clockBits ((bytes.flatMap byteBits).take k)) =
      s.withPins (.during ((bytes.flatMap byteBits).take k) k false) := by
  have began : s.pinEdge .csFall = s.withPins (.during [] 0 false) := if_neg (by rw [idle]; exact Bool.false_ne_true)
  change State.pinEdges _ (s.pinEdge .csFall) = _
  have length : ((bytes.flatMap byteBits).take k).length = k := by rw [List.length_take]; omega
  rw [length_flatMap_byteBits] at hk
  rw [began, clockBits_pending high _ _ _ fun j hj => ?_, length, List.nil_append, Nat.zero_add]
  rw [List.nil_append, List.take_take, sdiBytes_take]
  exact decode_short hw he (by omega)

/-- A whole frame, and what bits follow it. -/
theorem clocked_whole (after : List Bool) :
    s.pinEdges (.csFall :: clockBits (bytes.flatMap byteBits ++ after)) =
      (s.enqueue c).withPins (.during (bytes.flatMap byteBits) (8 * bytes.length + after.length) true) := by
  have length := length_flatMap_byteBits bytes
  have positive : 0 < bytes.length := encode_nonempty hw he
  have bitsNonempty : bytes.flatMap byteBits ≠ [] := List.ne_nil_of_length_pos (by omega)
  have cut := clocked_short high idle hw he (k := (bytes.flatMap byteBits).length - 1) (by omega)
  rw [← List.dropLast_eq_take] at cut
  have whole := (bytes.flatMap byteBits).dropLast_append_getLast bitsNonempty
  generalize (bytes.flatMap byteBits).getLast bitsNonempty = b at whole
  have last := clockBits_last high (bits := (bytes.flatMap byteBits).dropLast) (b := b)
    ((bytes.flatMap byteBits).length - 1) (c := c) (by rw [whole, sdiBytes_bits]; exact decode_whole hw he)
  rw [whole] at last
  have edges : clockBits (bytes.flatMap byteBits ++ after) =
      clockBits (bytes.flatMap byteBits).dropLast ++ (clockBits [b] ++ clockBits after) := by
    rw [← clockBits_append, ← clockBits_append, ← List.append_assoc, whole]
  rw [edges, ← List.cons_append, State.pinEdges_append, cut, State.pinEdges_append, last,
    clockBits_evaluated (s := s.enqueue c) high]
  congr 2
  omega

end

/-! ## SDO -/

/-- Bit m of a list of bytes, most significant first. -/
theorem getD_bits (l : List Byte) (m : Nat) :
    (l.flatMap byteBits).getD m false = (l.getD (m / 8) 0).getLsbD (7 - m % 8) := by
  induction l generalizing m with
  | nil => simp
  | cons b l ih =>
    by_cases small : m < 8
    · rw [Nat.div_eq_of_lt small, Nat.mod_eq_of_lt small, List.flatMap_cons,
        List.getD_append _ _ _ _ (by rw [byteBits_length]; exact small)]
      simp [byteBits, small]
    · rw [List.flatMap_cons, List.getD_append_right _ _ _ _ (by rw [byteBits_length]; omega), byteBits_length, ih]
      have div : m / 8 = (m - 8) / 8 + 1 := by omega
      have mod : m % 8 = (m - 8) % 8 := by omega
      rw [div, mod, List.getD_cons_succ]

/-- The bytes of SDO from the result code on. -/
theorem sdoByte_result (r : FrameResult) (n j : Nat) : r.sdoByte n (n + 1 + j) = (r.code.code :: r.data).getD j 0 := by
  unfold FrameResult.sdoByte
  rw [if_neg (by omega)]
  cases j with
  | zero => exact if_pos rfl
  | succ j =>
    rw [if_neg (by omega), List.getD_cons_succ]
    congr 1
    omega

/-- Settles O15: each row's frame decodes to it and no shorter frame does, the pins clock its bytes in, and SDO brings the
result from the last argument byte on. -/
theorem framesDecodeToTheirCommand : Obligations.FramesDecodeToTheirCommand := by
  refine ⟨by decide, fun c bytes after n hw he => ?_, fun c bytes k n hw he hk => ?_, fun s c bytes high idle hw he => ?_⟩
  · unfold frameRow
    rw [decode_encode hw he after]
    rfl
  · unfold frameRow
    rw [decode_short hw he hk]
    rfl
  · refine ⟨?_, fun after => ?_, fun k hk => ?_, fun k hk => ?_, fun after r => ?_⟩
    · unfold State.sdo
      exact if_neg (by rw [idle]; exact Bool.false_ne_true)
    · refine ⟨{ FramePins.during (bytes.flatMap byteBits) (8 * bytes.length + after.length) true with csLow := false },
        rfl, ?_⟩
      rw [State.pinEdges_append, clocked_whole high idle hw he after]
      exact if_neg (by simp [FramePins.during])
    · refine ⟨{ FramePins.during ((bytes.flatMap byteBits).take k) k false with csLow := false }, rfl, ?_⟩
      rw [State.pinEdges_append, clocked_short high idle hw he hk]
      have length : ((bytes.flatMap byteBits).take k).length = k := by rw [List.length_take]; omega
      have ended : (s.withPins (.during ((bytes.flatMap byteBits).take k) k false)).mgmt.pins.bits.length = k := length
      refine (if_pos (by rw [s.selected_during high]; rfl)).trans ?_
      rw [ended]
      rfl
    · rw [clocked_short high idle hw he hk]
      rfl
    · rw [clocked_whole high idle hw he after]
      have positive : 0 < bytes.length := encode_nonempty hw he
      change some ((r.sdoByte ((bytes.flatMap byteBits).length / 8 - 1) ((8 * bytes.length + after.length) / 8)).getLsbD
        (7 - (8 * bytes.length + after.length) % 8)) = _
      have first : (bytes.flatMap byteBits).length / 8 - 1 = bytes.length - 1 := by
        rw [length_flatMap_byteBits]
        omega
      have byte : (8 * bytes.length + after.length) / 8 = bytes.length - 1 + 1 + after.length / 8 := by omega
      have bit : (8 * bytes.length + after.length) % 8 = after.length % 8 := by omega
      rw [first, byte, bit, sdoByte_result, getD_bits]

end Sys2Proof.Machine

/-! PROOFS. The state right after the release of RESET_N (O5). -/

namespace Sys2Proof.Machine

/-- Settles O5: the reset value of every part, and each invariant's lemma at reset. -/
theorem resetValuesOfTheManual : Obligations.ResetValuesOfTheManual := by
  refine ⟨⟨State.reset_group, State.reset_window, State.reset_entry, State.reset_channel, fun p => by cases p <;> rfl, rfl,
    rfl, rfl, rfl, rfl, rfl, rfl, rfl, rfl, rfl, rfl, rfl, rfl, rfl, rfl, rfl, rfl, rfl, rfl, rfl⟩,
    State.reset_irqAgrees, State.reset_captureAgrees, State.reset_channelsAgree, State.reset_timebaseAgrees,
    State.reset_portsOrdered, State.reset_headsAgree, PortState.reset_balanced, PortState.reset_balanced,
    State.reset_balanced, State.reset_openWithinLimit, State.reset_drainLinesAgree, State.reset_windowsAgree,
    (State.stagedDataAgree_iff _).mpr Stage.reset_agrees⟩

end Sys2Proof.Machine

/-! PROOFS. RESET_DATAPATH: the blocks it cuts down, the held writes it answers, and the ports that move on after it in BYPASS
(R23, R48, R61, R97, R114, R152). -/

namespace Sys2Proof.Machine

/-! ## The blocks cut down -/

/-- RESET_DATAPATH before the held writes are answered. -/
def State.cutDown (s : State) : State := (s.withOp .bypass).discardEntries.markPassages.resetDrain.resetCapture

theorem State.resetDatapath_eq (s : State) :
    s.resetDatapath = State.moveOnAll (s.holds.map (·.port)) (State.discardHolds (s.holds.map (·.port)) s.cutDown) := rfl

section
variable (s : State)

theorem State.cutDown_frame : s.cutDown.op = .bypass ∧ s.cutDown.windows = s.windows ∧ s.cutDown.holds = s.holds ∧
    s.cutDown.tb = s.tb ∧ s.cutDown.mgmt = s.mgmt := by
  simp [State.cutDown]

theorem State.cutDown_port (p : Port) :
    s.cutDown.port p = { s.port p with queue := (s.port p).queue.map QueuedRequest.markPassage } := by
  have reset : s.cutDown.port p = ((s.withOp .bypass).discardEntries.markPassages).port p :=
    State.port_of_ports (by simp [State.cutDown]) (by simp [State.cutDown]) p
  rw [reset, State.markPassages_port,
    State.port_of_ports (s := s) (t := (s.withOp .bypass).discardEntries) (by simp) (by simp) p]

theorem State.cutDown_group (g : GroupId) : s.cutDown.group g = s.discardGroup (s.group g) := by
  rw [State.group_eq (s := (s.withOp .bypass).discardEntries) (by simp [State.cutDown]), State.discardEntries_group]
  rfl

theorem State.cutDown_drain : s.cutDown.drain.queue = [] ∧ s.cutDown.drain.leftovers = s.outstandingDrains ∧
    s.cutDown.drain.commitBusy = decide (s.outstandingDrains ≠ []) ∧ s.cutDown.arb = { s.arb with escalated := false } := by
  refine ⟨by simp [State.cutDown, State.resetDrain, State.refreshEscalated, State.refreshBusy], ?_, ?_, ?_⟩
  · exact State.outstandingDrains_of_eq (s := s) (by simp)
  · have same : (s.withOp .bypass).discardEntries.markPassages.outstandingDrains = s.outstandingDrains :=
      State.outstandingDrains_of_eq (by simp)
    simp only [State.cutDown, State.resetDrain, State.refreshEscalated, State.refreshBusy, State.resetCapture_frame,
      State.withDrain_drain, State.withArb_drain, same, List.isEmpty_nil, Bool.true_and]
    cases s.outstandingDrains <;> rfl
  · simp [State.cutDown, State.resetDrain, State.refreshEscalated, State.refreshBusy]

theorem State.cutDown_cap : s.cutDown.cap = { s.cap with
    queue := []
    lost := 0
    channels := s.cap.channels.map fun ch =>
      if ch.state = .off then ch else { ch with state := .armed, prescaleCount := 0, skipCount := 0 } } := by
  simp [State.cutDown, State.resetCapture]

theorem State.cutDown_ev : s.cutDown.ev.enables = s.ev.enables ∧ ∀ i : Fin 19, s.cutDown.ev.causes.getLsbD i.val =
    if i.val = 18 then decide (s.cap.threshold.toNat ≤ 0) else s.ev.causes.getLsbD i.val := by
  have before : (s.withOp .bypass).discardEntries.markPassages.resetDrain.ev = s.ev := by simp
  have cap : (s.withOp .bypass).discardEntries.markPassages.resetDrain.cap = s.cap := by simp
  unfold State.cutDown
  generalize (s.withOp .bypass).discardEntries.markPassages.resetDrain = u at before cap
  unfold State.resetCapture
  refine ⟨by rw [← before]; rfl, fun i => ?_⟩
  rw [State.refreshReady_bit, ← before, ← cap]
  rfl

/-! ## The held writes answered -/

/-- A marked queue has the same head, marked. -/
theorem State.cutDown_head (p : Port) : s.cutDown.head p = (s.head p).map QueuedRequest.markPassage := by
  unfold State.head State.firstRequest
  rw [State.cutDown_port, List.find?_map]
  congr 1
  refine List.find?_congr fun x _ => ?_
  exact x.markPassage_test Progress.isHead fun _ _ _ => rfl

theorem State.cutDown_head_of_held {p : Port} {r : BusRequest} {cls : Classification}
    (h : s.head p = some ⟨r, .head cls .held⟩) : s.cutDown.head p = some ⟨r, .head cls .held⟩ := by
  rw [State.cutDown_head, h]
  rfl

theorem State.discardHeld_holds (p : Port) : (s.discardHeld p).holds = s.holds.filter fun h => decide (h.port ≠ p) := by
  unfold State.discardHeld
  split
  · rw [(State.answerRefused_frame _ _ _ _ _).2.2.2.1]
    rfl
  · rfl

theorem State.discardHolds_holds (ports : List Port) : ∀ s : State,
    (State.discardHolds ports s).holds = s.holds.filter fun h => decide (h.port ∉ ports) := by
  induction ports with
  | nil => intro s; simp [State.discardHolds]
  | cons p ports ih =>
    intro s
    change (State.discardHolds ports (s.discardHeld p)).holds = _
    rw [ih, State.discardHeld_holds, List.filter_filter]
    congr 1
    funext h
    simp [Bool.and_comm]

theorem State.discardHolds_other {p : Port} (ports : List Port) (h : p ∉ ports) : ∀ s : State,
    (State.discardHolds ports s).port p = s.port p := by
  induction ports with
  | nil => exact fun _ => rfl
  | cons q ports ih =>
    intro s
    obtain ⟨ne, out⟩ := not_or.mp fun k => h (List.mem_cons.mpr k)
    exact (ih out _).trans (s.discardHeld_other ne)

/-- A held write answered at its port. -/
theorem State.discardHeld_port {s : State} {p : Port} {r : BusRequest} {cls : Classification}
    (h : s.head p = some ⟨r, .head cls .held⟩) : (s.discardHeld p).port p = { s.port p with
      queue := setFirst Progress.isHead (.answered ⟨.error, none⟩) (s.port p).queue
      lastError := some ⟨.discardedByReset, r.kind, r.word, r.tag, s.now⟩
      counts := (s.port p).counts.withError .discardedByReset } := by
  unfold State.discardHeld
  rw [h]
  dsimp only
  rw [State.answerRefused_port, if_pos rfl]
  simp [State.now]

/-- Of several held writes each is answered as it stands, once. -/
theorem State.discardHolds_port {p : Port} {r : BusRequest} {cls : Classification} (ports : List Port)
    (nodup : ports.Nodup) (mem : p ∈ ports) : ∀ {s : State}, s.head p = some ⟨r, .head cls .held⟩ →
    (State.discardHolds ports s).port p = (s.discardHeld p).port p := by
  induction ports with
  | nil => cases mem
  | cons q ports ih =>
    intro s h
    obtain ⟨fresh, nodup⟩ := List.nodup_cons.mp nodup
    change (State.discardHolds ports (s.discardHeld q)).port p = _
    by_cases e : p = q
    · subst e
      exact State.discardHolds_other ports fresh _
    · have same := s.discardHeld_other e
      have now : (s.discardHeld q).now = s.now := by simp [State.now]
      rw [ih nodup ((List.mem_cons.mp mem).resolve_left e) ((State.head_of_port same).trans h),
        State.discardHeld_port ((State.head_of_port same).trans h), State.discardHeld_port h, same, now]

/-! ## The ports that move on -/

theorem State.moveOn_movesOn (p q : Port) : (s.port p).MovesOn ((s.moveOn q).port p) := by
  by_cases e : p = q
  · subst e
    exact s.moveOn_same p
  · rw [State.moveOn_other s e]
    exact .refl _

theorem State.moveOnAll_movesOn (ports : List Port) (p : Port) : ∀ s : State,
    (s.port p).MovesOn ((State.moveOnAll ports s).port p) := by
  induction ports with
  | nil => exact fun s => .refl _
  | cons q ports ih => exact fun s => (s.moveOn_movesOn p q).trans (ih _)

theorem State.moveOnAll_other {p : Port} (ports : List Port) (h : p ∉ ports) : ∀ s : State,
    (State.moveOnAll ports s).port p = s.port p := by
  induction ports with
  | nil => exact fun _ => rfl
  | cons q ports ih =>
    intro s
    obtain ⟨ne, out⟩ := not_or.mp fun k => h (List.mem_cons.mpr k)
    exact (ih out _).trans (State.moveOn_other s ne)

/-- Outside ACTIVE no write comes to be in passage (R91). -/
theorem State.bringHeads_windows {p : Port} (n : Nat) : ∀ {s : State}, s.op ≠ .active →
    (s.bringHeads p n).windows = s.windows := by
  induction n with
  | zero => exact fun _ => rfl
  | succ n ih =>
    intro s h
    have pass : ∀ word, (s.classify p word).route = .pass := fun word => by
      unfold State.classify
      split
      · exact absurd ‹s.op = .active› h
      · rfl
      · rfl
    unfold State.bringHeads
    split
    · rename_i r _ _
      exact (ih (by simpa using h)).trans ((s.enterHead_windows p r.request).1 (.inr (pass _)))
    · rfl

theorem State.moveOnAll_quiet (ports : List Port) : ∀ {s : State}, s.op ≠ .active →
    (State.moveOnAll ports s).cap = s.cap ∧ (State.moveOnAll ports s).ev = s.ev ∧
      (State.moveOnAll ports s).windows = s.windows := by
  induction ports with
  | nil => exact fun _ => ⟨rfl, rfl, rfl⟩
  | cons p ports ih =>
    intro s h
    obtain ⟨cap, ev⟩ := State.moveOn_quiet h p
    obtain ⟨cap', ev', windows⟩ := ih (s := s.moveOn p) (by simpa using h)
    exact ⟨cap'.trans cap, ev'.trans ev, windows.trans (State.bringHeads_windows _ h)⟩

/-! ## The windows' counts (R84) -/

theorem State.held_of_headHeld {p : Port} (h : s.headHeld p = true) : ∃ r cls, s.head p = some ⟨r, .head cls .held⟩ := by
  unfold State.headHeld at h
  split at h
  · rename_i r cls e
    exact ⟨r, cls, e⟩
  · cases h

theorem State.passageWindow_of_held {s : State} {p : Port} {r : BusRequest} {cls : Classification}
    (h : s.head p = some ⟨r, .head cls .held⟩) : s.passageWindow p = cls.window := by
  unfold State.passageWindow
  rw [h]

theorem State.discardHeld_window {s : State} {p : Port} (h : s.headHeld p = true) (w : WindowId) :
    (s.discardHeld p).window w = { s.window w with
      passage := (s.window w).passage - if s.passageWindow p = some w then 1 else 0 } := by
  obtain ⟨r, cls, hh⟩ := s.held_of_headHeld h
  rw [State.passageWindow_of_held hh]
  unfold State.discardHeld
  rw [hh]
  dsimp only
  unfold State.answerRefused
  have before : (((s.dropHold p).progressFirst p Progress.isHead (.answered ⟨.error, none⟩)).recordError p
      .discardedByReset r).window w = s.window w := by simp [State.window]
  rw [State.passage_window, before]
  split <;> rfl

/-- Each held write leaves its window's count. -/
theorem State.discardHolds_window (ports : List Port) (nodup : ports.Nodup) (w : WindowId) : ∀ {s : State},
    (∀ p ∈ ports, s.headHeld p = true) → (State.discardHolds ports s).window w = { s.window w with
      passage := (s.window w).passage - (ports.filter fun p => decide (s.passageWindow p = some w)).length } := by
  induction ports with
  | nil => exact fun _ => rfl
  | cons q ports ih =>
    intro s held
    obtain ⟨fresh, nodup⟩ := List.nodup_cons.mp nodup
    have same : ∀ p ∈ ports, (s.discardHeld q).head p = s.head p := fun p hp =>
      State.head_of_port (s.discardHeld_other fun e => fresh (e ▸ hp))
    have rest := ih nodup (s := s.discardHeld q) fun p hp => by
      unfold State.headHeld
      rw [same p hp]
      exact held p (List.mem_cons_of_mem _ hp)
    have count : (ports.filter fun p => decide ((s.discardHeld q).passageWindow p = some w)) =
        ports.filter fun p => decide (s.passageWindow p = some w) :=
      List.filter_congr fun p hp => by rw [State.passageWindow_of_head (same p hp)]
    change (State.discardHolds ports (s.discardHeld q)).window w = _
    rw [rest, count, State.discardHeld_window (held q List.mem_cons_self), List.filter_cons]
    by_cases e : s.passageWindow q = some w
    · simp only [e, decide_true, if_true, List.length_cons]
      congr 1
      omega
    · simp [e]

/-- The ports of a list, counted in the order of the ports. -/
theorem length_filter_ports {ports : List Port} (nodup : ports.Nodup) (f : Port → Bool) :
    (ports.filter f).length = ([Port.a, Port.b].filter fun p => decide (p ∈ ports) && f p).length := by
  refine List.Perm.length_eq ((List.perm_ext_iff_of_nodup (nodup.filter _) (List.Nodup.filter _ (by decide))).mpr fun p => ?_)
  simp only [List.mem_filter, Bool.and_eq_true, decide_eq_true_eq]
  exact ⟨fun h => ⟨by cases p <;> simp, h⟩, fun h => h.2⟩

end

/-! ## All of it -/

section
variable (s : State)

theorem exec_resetDatapath {s : State} (hs : s.takesFrames) (hi : s.op ≠ .init) :
    exec .resetDatapath s = .next (s.resetDatapath.reply .accepted s.discardSummary) := by
  simp only [exec, execResetDatapath]
  rw [State.hearing_of_listening hs.1 hs.2, State.unlessInit_of_ne hi]

theorem State.resetDatapath_op : s.resetDatapath.op = .bypass := by simp [State.resetDatapath]

theorem State.resetDatapath_group (g : GroupId) : s.resetDatapath.group g = s.discardGroup (s.group g) := by
  rw [State.resetDatapath_eq, State.group_eq (s := s.cutDown) (by simp), State.cutDown_group]

theorem State.resetDatapath_entry (i : PoolIndex) :
    s.resetDatapath.entry i = if s.entryIs .writing i then s.entry i else none :=
  congrFun (congrArg Stage.entry s.resetDatapath_stage) i

theorem State.resetDatapath_holds : s.resetDatapath.holds = [] := by
  rw [State.resetDatapath_eq, (State.moveOnAll_frame _ _).2.2.2.1, State.discardHolds_holds, s.cutDown_frame.2.2.1]
  refine List.filter_eq_nil_iff.mpr fun h mem => ?_
  simp only [decide_eq_true_eq, not_not]
  exact List.mem_map_of_mem mem

theorem State.resetDatapath_blocks : s.resetDatapath.drain = s.cutDown.drain ∧ s.resetDatapath.arb = s.cutDown.arb ∧
    s.resetDatapath.cap = s.cutDown.cap ∧ s.resetDatapath.ev = s.cutDown.ev := by
  have op : (State.discardHolds (s.holds.map (·.port)) s.cutDown).op ≠ .active := by
    rw [(State.discardHolds_frame _ _).2.1, s.cutDown_frame.1]
    exact OperatingState.noConfusion
  obtain ⟨cap, ev, -⟩ := State.moveOnAll_quiet (s.holds.map (·.port)) op
  rw [State.resetDatapath_eq]
  exact ⟨by simp, by simp, by rw [cap]; simp, by rw [ev]; simp⟩

theorem State.resetDatapath_port_of_free {p : Port} (h : p ∉ s.holds.map (·.port)) : s.resetDatapath.port p =
    { s.port p with queue := (s.port p).queue.map QueuedRequest.markPassage } := by
  rw [State.resetDatapath_eq, State.moveOnAll_other _ h, State.discardHolds_other _ h, State.cutDown_port]

theorem State.resetDatapath_window (nodup : (s.holds.map (·.port)).Nodup)
    (held : ∀ p ∈ s.holds.map (·.port), s.headHeld p = true) (w : WindowId) : s.resetDatapath.window w = { s.window w with
      passage := (s.window w).passage - ([Port.a, Port.b].filter fun p =>
        decide (p ∈ s.holds.map (·.port)) && decide (s.passageWindow p = some w)).length } := by
  have head : ∀ p ∈ s.holds.map (·.port), s.cutDown.head p = s.head p := fun p hp => by
    obtain ⟨r, cls, hh⟩ := s.held_of_headHeld (held p hp)
    rw [hh, s.cutDown_head_of_held hh]
  have op : (State.discardHolds (s.holds.map (·.port)) s.cutDown).op ≠ .active := by
    rw [(State.discardHolds_frame _ _).2.1, s.cutDown_frame.1]
    exact OperatingState.noConfusion
  have count : ((s.holds.map (·.port)).filter fun p => decide (s.cutDown.passageWindow p = some w)) =
      (s.holds.map (·.port)).filter fun p => decide (s.passageWindow p = some w) :=
    List.filter_congr fun p hp => by rw [State.passageWindow_of_head (head p hp)]
  rw [State.resetDatapath_eq, State.window_of_windows (State.moveOnAll_quiet _ op).2.2,
    State.discardHolds_window _ nodup w fun p hp => (State.headHeld_of_head (head p hp)).trans (held p hp), count,
    length_filter_ports nodup, State.window_of_windows s.cutDown_frame.2.1]

theorem QueuedRequest.markPassage_of_not_head {x : QueuedRequest} (h : x.progress.isHead = false) : x.markPassage = x := by
  unfold QueuedRequest.markPassage
  split
  · rename_i e
    rw [e] at h
    cases h
  · rfl

/-- The port of a held write, answered and moved on (R23, R102, R110). -/
theorem State.resetDatapath_port_of_held {p : Port} {r : BusRequest} {cls : Classification}
    (nodup : (s.holds.map (·.port)).Nodup) (ho : queueOrdered (s.port p).queue = true) (mem : p ∈ s.holds.map (·.port))
    (hh : s.head p = some ⟨r, .head cls .held⟩) :
    (s.resetDatapath.port p).counts.errDiscarded = (s.port p).counts.errDiscarded + 1 ∧
    (s.resetDatapath.port p).lastError =
      some ⟨.discardedByReset, r.kind, r.word, r.tag, ⟨s.tb.cycle, s.tb.counter, s.tb.running⟩⟩ ∧
    queueMoves r (.head cls .held) (.answered ⟨.error, none⟩) (s.port p).queue (s.resetDatapath.port p).queue := by
  obtain ⟨pre, post, hq, hpre⟩ := State.head_split hh
  have around := ho
  rw [hq] at around
  obtain ⟨settled, behind⟩ := queueOrdered_around around
  have unmarked : (s.port p).queue.map QueuedRequest.markPassage = (s.port p).queue := by
    refine (List.map_congr_left fun x hx => ?_).trans (List.map_id _)
    rw [hq] at hx
    rcases List.mem_append.mp hx with inPre | inRest
    · exact QueuedRequest.markPassage_of_not_head (hpre x inPre)
    · rcases List.mem_cons.mp inRest with rfl | inPost
      · rfl
      · refine QueuedRequest.markPassage_of_not_head ?_
        have b := behind x inPost
        cases e : x.progress <;> rw [e] at b <;> first | rfl | cases b
  have answered := State.discardHolds_port (s.holds.map (·.port)) nodup mem (s.cutDown_head_of_held hh)
  rw [State.discardHeld_port (s.cutDown_head_of_held hh), s.cutDown_port, unmarked] at answered
  have moved := State.moveOnAll_movesOn (s.holds.map (·.port)) p (State.discardHolds (s.holds.map (·.port)) s.cutDown)
  rw [← State.resetDatapath_eq, answered] at moved
  obtain ⟨n, counts⟩ := moved.counts
  have now : s.cutDown.now = s.now := by simp [State.now, s.cutDown_frame.2.2.2.1]
  refine ⟨by rw [counts]; rfl, by rw [moved.lastError, now]; rfl, ?_⟩
  refine queueMoves_of_movesOn hq (mid := _) ?_ rfl (fun x hx => (Bool.or_eq_false_iff.mp (settled x hx)).1) moved
  dsimp only
  rw [hq]
  exact setFirst_of_split _ rfl hpre

end

/-- Settles O48: each block is cut down as its chapter says, each held write is answered once, and no port that moves on in
BYPASS reaches a window or the capture unit. -/
theorem resetDatapathDiscards : Obligations.ResetDatapathDiscards := by
  intro s hs hi
  obtain ⟨drain, arb, cap, ev⟩ := s.resetDatapath_blocks
  obtain ⟨queue, leftovers, busy, arbiter⟩ := s.cutDown_drain
  obtain ⟨enables, bits⟩ := s.cutDown_ev
  have capture := cap.trans s.cutDown_cap
  refine ⟨_, exec_resetDatapath hs hi, s.resetDatapath_op, s.resetDatapath_entry, s.resetDatapath_group,
    s.resetDatapath_holds,
    (congrArg DrainEngine.queue drain).trans queue, (congrArg DrainEngine.leftovers drain).trans leftovers,
    (congrArg DrainEngine.commitBusy drain).trans busy, arb.trans arbiter, s.resetDatapath_frame.2.1,
    congrArg CaptureUnit.queue capture, congrArg CaptureUnit.lost capture, fun i => ?_, ?_, fun c => ?_, fun ht => ?_,
    (congrArg CaptureUnit.threshold capture).trans rfl, fun p hp => ?_,
    fun nodup => ⟨fun p r cls ho mem hh => ?_, fun held w => ?_⟩, ?_⟩
  · refine (congrArg (fun e => e.causes.getLsbD i.val) ev).trans ((bits ⟨i.val, by omega⟩).trans (if_neg ?_))
    exact fun e => absurd e (by have := i.isLt; dsimp only; omega)
  · exact (congrArg EventUnit.enables ev).trans enables
  · have channels := congrArg (fun u => u.channels[c]) capture
    refine Eq.trans ?_ (channels.trans ?_)
    · rfl
    · exact Vector.getElem_map _ c.isLt
  · refine (congrArg (fun e => e.causes.getLsbD 18) ev).trans ((bits 18).trans ((if_pos rfl).trans (decide_eq_false ?_)))
    exact fun le => ht (BitVec.eq_of_toNat_eq (Nat.le_zero.mp le))
  · exact s.resetDatapath_port_of_free hp
  · exact s.resetDatapath_port_of_held nodup ho mem hh
  · exact s.resetDatapath_window nodup held w
  · exact congrArg (fun m : ManagementPort => { m with result := some ⟨.accepted, s.discardSummary⟩ })
      s.resetDatapath_frame.2.2.1

end Sys2Proof.Machine

/-! PROOFS. One held write at a retry point: what its retry leaves in the table, at its port and in the causes. -/

namespace Sys2Proof.Machine

open Sys2Proof

/-! ## The retry of one held write -/

section
variable {s : State} {x : Hold} {word : WordIndex} {m : LaneSet} {d : Lanes} {tag : Tag} {cls : Classification}

theorem State.retryHold_of_merged (hh : s.head x.port = some ⟨.write word m d tag, .head cls .held⟩)
    (h : (s.place x.port x.group word m d).2 = .merged) : s.retryHold x =
    (((s.place x.port x.group word m d).1.dropHold x.port).answerPlaced x.port cls true, true) := by
  simp only [State.retryHold, hh, h]

theorem State.retryHold_of_allocated (hh : s.head x.port = some ⟨.write word m d tag, .head cls .held⟩)
    (h : (s.place x.port x.group word m d).2 = .allocated) : s.retryHold x =
    (((s.place x.port x.group word m d).1.dropHold x.port).answerPlaced x.port cls false, true) := by
  simp only [State.retryHold, hh, h]

theorem State.retryHold_of_rejected (hh : s.head x.port = some ⟨.write word m d tag, .head cls .held⟩)
    (h : (s.place x.port x.group word m d).2 = .rejected) : s.retryHold x =
    (((s.place x.port x.group word m d).1.dropHold x.port).answerRefused x.port cls (.write word m d tag) .rejectedFull,
      true) := by
  simp only [State.retryHold, hh, h]

theorem State.retryHold_of_heldBack (hh : s.head x.port = some ⟨.write word m d tag, .head cls .held⟩)
    (h : (s.place x.port x.group word m d).2 = .heldBack) : s.retryHold x = (s, false) := by
  simp only [State.retryHold, hh, h]

end

/-! ## A retry point with one hold record -/

section
variable {s : State} {x : Hold} {concerned : Hold → Bool}

/-- A held write that a retry point does not concern (R16). -/
theorem State.retryHolds_of_unconcerned (hs : s.holds = [x]) (hc : concerned x = false) : s.retryHolds concerned = s := by
  simp [State.retryHolds, hs, hc, State.retryAll, State.moveOnAll]

theorem State.retryHolds_of_answered (hs : s.holds = [x]) (hc : concerned x = true) {u : State}
    (h : s.retryHold x = (u, true)) : s.retryHolds concerned = u.moveOn x.port := by
  simp [State.retryHolds, hs, hc, State.retryAll, State.moveOnAll, h]

theorem State.retryHolds_of_kept (hs : s.holds = [x]) (hc : concerned x = true) (h : s.retryHold x = (s, false)) :
    s.retryHolds concerned = s := by
  simp [State.retryHolds, hs, hc, State.retryAll, State.moveOnAll, h]

end

/-- What a property of progresses keeps when the first of a kind is replaced. -/
theorem setFirst_keeps {test keeps : Progress → Bool} {b : Bool} {new : Progress} {q : List QueuedRequest}
    (h : ∀ y ∈ q, keeps y.progress = b) (hn : keeps new = b) : ∀ y ∈ setFirst test new q, keeps y.progress = b := by
  induction q with
  | nil => exact h
  | cons r rest ih =>
    obtain ⟨hr, hrest⟩ := List.forall_mem_cons.mp h
    unfold setFirst
    split
    · exact List.forall_mem_cons.mpr ⟨hn, hrest⟩
    · exact List.forall_mem_cons.mpr ⟨hr, ih hrest⟩

/-- The port of an answered head moves nothing on when no request is BEHIND (R102). -/
theorem State.moveOn_of_noBehind {s u : State} {p : Port} {new : Progress} (hn : new.isBehind = false)
    (hu : (u.port p).queue = setFirst Progress.isHead new (s.port p).queue)
    (h : ∀ q ∈ (s.port p).queue, q.progress.isBehind = false) : u.moveOn p = u := by
  refine State.bringHeads_of_settled _ (Or.inr ?_)
  unfold State.firstRequest
  rw [hu]
  exact List.find?_eq_none.mpr fun y hy => by simp [setFirst_keeps h hn y hy]

/-- A held write placed at a retry point, after its port has moved on: everything but the table (R17, R105, R108). -/
def State.servesHold (s t : State) (p : Port) (r : BusRequest) (cls : Classification) (merged : Count) : Prop :=
  t.holds = [] ∧
  queueMoves r (.head cls .held) (.answered ⟨.okay, none⟩) (s.port p).queue (t.port p).queue ∧
  (t.port p).counts.stagedPlaced = (s.port p).counts.stagedPlaced + 1 ∧
  (t.port p).counts.merged = (s.port p).counts.merged + merged ∧
  (t.port p).lastError = (s.port p).lastError ∧
  t.drain = s.drain ∧ t.arb = s.arb ∧ t.tb = s.tb ∧ t.op = s.op ∧ t.mgmt = s.mgmt ∧
  (∀ q : Port, q ≠ p → t.port q = s.port q) ∧
  ((∀ q ∈ (s.port p).queue, q.progress.isBehind = false) → t.cap = s.cap ∧ t.ev = s.ev ∧
    ∀ w : WindowId, t.window w = if cls.window = some w then { s.window w with passage := (s.window w).passage - 1 }
      else s.window w)

/-- The only hold record goes (R15). -/
theorem State.dropHold_holds_of_one {s : State} {x : Hold} (h : s.holds = [x]) : (s.dropHold x.port).holds = [] := by
  simp [State.dropHold, h]

theorem State.servesHold_of_placed {s : State} {x : Hold} {word : WordIndex} {m : LaneSet} {d : Lanes} {tag : Tag}
    {cls : Classification} (hs : s.holds = [x]) (ho : queueOrdered (s.port x.port).queue = true)
    (hh : s.head x.port = some ⟨.write word m d tag, .head cls .held⟩)
    (hev : (s.place x.port x.group word m d).1.ev = s.ev) (merged : Bool) :
    s.servesHold ((((s.place x.port x.group word m d).1.dropHold x.port).answerPlaced x.port cls merged).moveOn x.port)
      x.port (.write word m d tag) cls (if merged then 1 else 0) := by
  have ports : ∀ q, ((s.place x.port x.group word m d).1.dropHold x.port).port q = s.port q := fun q => by simp
  obtain ⟨moves, placed, joined, error, others⟩ := State.answerPlaced_moveOn merged ho hh ports
  have gone : ((s.place x.port x.group word m d).1.dropHold x.port).holds = [] :=
    State.dropHold_holds_of_one (by simpa using hs)
  refine ⟨by simpa using gone, moves, placed, ?_, error, by simp, by simp, by simp, by simp, by simp, others, fun alone => ?_⟩
  · rw [joined]
    cases merged <;> simp
  · rw [State.moveOn_of_noBehind (s := s) (new := .answered ⟨.okay, none⟩) rfl
      (by rw [State.answerPlaced_port, if_pos rfl, ports]) alone]
    refine ⟨by simp, by simpa using hev, fun w => ?_⟩
    have windows : (((s.place x.port x.group word m d).1.dropHold x.port).answerPlaced x.port cls merged).windows =
        (s.passage cls.window (· - 1)).windows := State.passage_windows (by simp) _ _
    exact (State.window_of_windows windows w).trans (State.passage_window s _ _ w)

/-! ## The four outcomes of one retry -/

section
variable {s : State} {x : Hold} {concerned : Hold → Bool} {word : WordIndex} {m : LaneSet} {d : Lanes} {tag : Tag}
  {cls : Classification}

/-- A held write that merges at a retry point (R8, R17). -/
theorem State.retryHolds_merges (hs : s.holds = [x]) (hc : concerned x = true)
    (ho : queueOrdered (s.port x.port).queue = true)
    (hh : s.head x.port = some ⟨.write word m d tag, .head cls .held⟩) {i : PoolIndex} {e : Entry}
    (target : s.mergeTarget x.group word = some i) (he : s.entry i = some e) :
    s.servesHold (s.retryHolds concerned) x.port (.write word m d tag) cls 1 ∧
    (s.retryHolds concerned).entry i = some (e.joined x.port m d) ∧
    (∀ j, j ≠ i → (s.retryHolds concerned).entry j = s.entry j) ∧
    ∀ h : GroupId, (s.retryHolds concerned).group h = if h = x.group then { s.group h with counts := { (s.group h).counts with
      merged := (s.group h).counts.merged + 1 } } else s.group h := by
  obtain ⟨done, ev, here, others, groups⟩ := State.place_merges x.port m d target he
  rw [State.retryHolds_of_answered hs hc (State.retryHold_of_merged hh done)]
  exact ⟨State.servesHold_of_placed hs ho hh ev true, (State.entry_eq (by simp) i).trans here,
    fun j hj => (State.entry_eq (by simp) j).trans (others j hj), fun h => (State.group_eq (by simp) h).trans (groups h)⟩

/-- A held write that takes the lowest free entry at a retry point (R4, R17). -/
theorem State.retryHolds_allocates (hs : s.holds = [x]) (hc : concerned x = true)
    (ho : queueOrdered (s.port x.port).queue = true)
    (hh : s.head x.port = some ⟨.write word m d tag, .head cls .held⟩) (hn : s.needsEntry x.group word)
    (hl : (s.group x.group).openList.length < (s.group x.group).entryLimit.toNat) {i : PoolIndex}
    (hi : s.lowestFree = some i) :
    s.servesHold (s.retryHolds concerned) x.port (.write word m d tag) cls 0 ∧
    (s.retryHolds concerned).entry i = some (Entry.opened x.port x.group word m d) ∧
    (∀ j, j ≠ i → (s.retryHolds concerned).entry j = s.entry j) ∧
    ∀ h : GroupId, (s.retryHolds concerned).group h = if h = x.group then { s.group h with
      openList := (s.group h).openList ++ [i]
      counts := { (s.group h).counts with allocated := (s.group h).counts.allocated + 1 } } else s.group h := by
  obtain ⟨done, ev, here, others, groups⟩ := State.place_allocates x.port m d (State.mergeTarget_of_none hn) hl hi
  rw [State.retryHolds_of_answered hs hc (State.retryHold_of_allocated hh done)]
  exact ⟨State.servesHold_of_placed hs ho hh ev false, (State.entry_eq (by simp) i).trans here,
    fun j hj => (State.entry_eq (by simp) j).trans (others j hj), fun h => (State.group_eq (by simp) h).trans (groups h)⟩

/-- The retry of a held write without room under HOLD (R15, R17). -/
theorem State.retryHold_keeps (hh : s.head x.port = some ⟨.write word m d tag, .head cls .held⟩)
    (hn : s.needsEntry x.group word) (hf : s.hasNoRoom x.group) (hpol : (s.group x.group).policy = .hold) :
    s.retryHold x = (s, false) :=
  State.retryHold_of_heldBack hh (congrArg Prod.snd
    (State.place_of_hold x.port m d (State.mergeTarget_of_none hn) (State.allocationIndex_of_full hf) hpol))

/-- A held write without room under REJECT at a retry point (R14, R17). -/
theorem State.retryHolds_rejects (hs : s.holds = [x]) (hc : concerned x = true)
    (ho : queueOrdered (s.port x.port).queue = true)
    (hh : s.head x.port = some ⟨.write word m d tag, .head cls .held⟩) (hn : s.needsEntry x.group word)
    (hf : s.hasNoRoom x.group) (hpol : (s.group x.group).policy = .reject) :
    let t := s.retryHolds concerned
    t.holds = [] ∧ t.pool = s.pool ∧ t.drain = s.drain ∧ t.arb = s.arb ∧ t.tb = s.tb ∧ t.op = s.op ∧ t.mgmt = s.mgmt ∧
    (∀ h : GroupId, t.group h = if h = x.group then { s.group h with counts := { (s.group h).counts with
      rejections := (s.group h).counts.rejections + 1 } } else s.group h) ∧
    t.ev.causes.getLsbD 12 = true ∧
    (t.port x.port).lastError = some ⟨.rejectedFull, .write, word, tag, s.now⟩ ∧
    (t.port x.port).counts.errRejected = (s.port x.port).counts.errRejected + 1 ∧
    queueMoves (.write word m d tag) (.head cls .held) (.answered ⟨.error, none⟩)
      (s.port x.port).queue (t.port x.port).queue := by
  obtain ⟨done, pool, cause, groups⟩ :=
    State.place_rejects x.port m d (State.mergeTarget_of_none hn) (State.allocationIndex_of_full hf) hpol
  have ports : ∀ q, ((s.place x.port x.group word m d).1.dropHold x.port).port q = s.port q := fun q => by simp
  obtain ⟨moves, ⟨n, counts⟩, error, -⟩ := State.answerRefused_moveOn .rejectedFull ho hh ports (by simp [State.now])
  have gone : ((s.place x.port x.group word m d).1.dropHold x.port).holds = [] :=
    State.dropHold_holds_of_one (by simpa using hs)
  rw [State.retryHolds_of_answered hs hc (State.retryHold_of_rejected hh done)]
  refine ⟨by simpa using gone, ?_, by simp, by simp, by simp, by simp, by simp, fun h => ?_, ?_, error,
    by rw [counts]; rfl, moves⟩
  · exact (by simp : _ = (s.place x.port x.group word m d).1.pool).trans pool
  · exact (State.group_eq (by simp) h).trans (groups h)
  · rw [State.moveOn_bit _ _ (by decide)]
    simpa using cause

end

end Sys2Proof.Machine

/-! PROOFS. Two held writes and one free entry: the one first refused is placed, the other one waits on. -/

namespace Sys2Proof.Machine

open Sys2Proof

section
variable {s u : State} {x y : Hold} {wx wy : WordIndex} {mx : LaneSet} {dx : Lanes} {i : PoolIndex}

/-- An open list names no free entry (R3). -/
theorem State.listsAgree.open_ne_free (agree : s.listsAgree) (free : s.entry i = none) {g : GroupId} {j : PoolIndex}
    (hj : j ∈ (s.group g).openList) : j ≠ i := by
  rintro rfl
  obtain ⟨-, openAgree, -, -⟩ := agree g
  obtain ⟨e, he, -, -⟩ := (openAgree j).mp hj
  rw [free] at he
  cases he

/-- A write that finds no entry to merge with finds none after another word's write, or another group's, has taken the free
entry (R8, R10). -/
theorem State.needsEntry_of_allocated (agree : s.listsAgree) (free : s.entry i = none) (hy : s.needsEntry y.group wy)
    (apart : x.group = y.group → (s.group y.group).mode = .sequence ∨ wx ≠ wy)
    (here : u.entry i = some (Entry.opened x.port x.group wx mx dx)) (others : ∀ j, j ≠ i → u.entry j = s.entry j)
    (groups : ∀ h : GroupId, u.group h = if h = x.group then { s.group h with
      openList := (s.group h).openList ++ [i]
      counts := { (s.group h).counts with allocated := (s.group h).counts.allocated + 1 } } else s.group h) :
    u.needsEntry y.group wy := by
  have mode : (u.group y.group).mode = (s.group y.group).mode := by rw [groups]; split <;> rfl
  rcases hy with sequence | fresh
  · exact .inl (mode.trans sequence)
  · have old : ∀ j ∈ (s.group y.group).openList, ∀ e, u.entry j = some e → e.word ≠ wy := fun j hj e he =>
      fresh j hj e (by rwa [others j (agree.open_ne_free free hj)] at he)
    by_cases same : x.group = y.group
    · refine (apart same).imp mode.trans fun words j hj e he => ?_
      rw [groups, if_pos same.symm] at hj
      rcases List.mem_append.mp hj with hj | hj
      · exact old j hj e he
      · rw [List.mem_singleton.mp hj, here] at he
        rw [← Option.some.inj he]
        exact words
    · refine .inr fun j hj => old j ?_
      rwa [groups, if_neg (Ne.symm same)] at hj

end

/-- A retry point with two hold records of which the first one is answered and the second one stays (R16, R17). -/
theorem State.retryHolds_of_first {s u : State} {x y : Hold} {concerned : Hold → Bool} (hs : s.holds = [x, y])
    (hx : concerned x = true) (hy : concerned y = true) (first : s.retryHold x = (u, true))
    (second : u.retryHold y = (u, false)) : s.retryHolds concerned = u.moveOn x.port := by
  simp [State.retryHolds, hs, hx, hy, State.retryAll, State.moveOnAll, first, second]

/-- Of two held writes and one free entry the one first refused takes it (R16). -/
theorem State.retryHolds_firstRefused {s : State} {x y : Hold} {concerned : Hold → Bool} {wx wy : WordIndex}
    {mx my : LaneSet} {dx dy : Lanes} {tx ty : Tag} {cx cy : Classification} {i : PoolIndex} (hs : s.holds = [x, y])
    (agree : s.listsAgree) (ports : x.port ≠ y.port) (hx : concerned x = true) (hy : concerned y = true)
    (headX : s.head x.port = some ⟨.write wx mx dx tx, .head cx .held⟩)
    (headY : s.head y.port = some ⟨.write wy my dy ty, .head cy .held⟩)
    (needX : s.needsEntry x.group wx) (needY : s.needsEntry y.group wy)
    (apart : x.group = y.group → (s.group y.group).mode = .sequence ∨ wx ≠ wy)
    (hl : (s.group x.group).openList.length < (s.group x.group).entryLimit.toNat)
    (policy : (s.group y.group).policy = .hold) (free : s.entry i = none)
    (full : ∀ j, j ≠ i → (s.entry j).isSome = true) :
    (s.retryHolds concerned).holds = [y] ∧
    (s.retryHolds concerned).entry i = some (Entry.opened x.port x.group wx mx dx) ∧
    (s.retryHolds concerned).port y.port = s.port y.port := by
  have lowest := State.lowestFree_of_lowest free fun j hj => full j (by rintro rfl; exact absurd hj (lt_irrefl _))
  obtain ⟨done, -, here, others, groups⟩ :=
    State.place_allocates x.port mx dx (State.mergeTarget_of_none needX) hl lowest
  have first := State.retryHold_of_allocated headX done
  generalize hu : ((s.place x.port x.group wx mx dx).1.dropHold x.port).answerPlaced x.port cx false = u at first
  have entry : ∀ j, u.entry j = (s.place x.port x.group wx mx dx).1.entry j := fun j => State.entry_eq (by simp [← hu]) j
  have group : ∀ h, u.group h = (s.place x.port x.group wx mx dx).1.group h := fun h => State.group_eq (by simp [← hu]) h
  have portY : u.port y.port = s.port y.port := by
    rw [← hu, State.answerPlaced_port, if_neg ports.symm]
    simp
  have headY' : u.head y.port = some ⟨.write wy my dy ty, .head cy .held⟩ := by
    rw [← headY]
    simp only [State.head, State.firstRequest, portY]
  have second : u.retryHold y = (u, false) := by
    refine State.retryHold_keeps headY' ?_ (.inr fun j => ?_) ?_
    · exact State.needsEntry_of_allocated agree free needY apart ((entry i).trans here)
        (fun j hj => (entry j).trans (others j hj)) fun h => (group h).trans (groups h)
    · rw [entry]
      by_cases e : j = i
      · rw [e, here]; rfl
      · rw [others j e]; exact full j e
    · rw [group, groups]
      split <;> exact policy
  have moved := State.retryHolds_of_first hs hx hy first second
  refine ⟨?_, ?_, ?_⟩
  · rw [moved, ← hu]
    simp [State.dropHold, hs, ports.symm]
  · rw [moved]
    exact (State.entry_eq (by simp) i).trans ((entry i).trans here)
  · rw [moved, State.moveOn_other _ ports.symm, portY]

end Sys2Proof.Machine

/-! PROOFS. A retry point neither reads nor writes the management port. -/

namespace Sys2Proof.Machine

open Sys2Proof

/-! ## The happenings of a retry point beside another management port -/

section
variable (s : State) (x : ManagementPort)

theorem State.withMgmt_withPort (p : Port) (a : PortState) :
    (s.withMgmt x).withPort p a = (s.withPort p a).withMgmt x := by cases p <;> rfl

theorem State.withMgmt_progressFirst (p : Port) (test : Progress → Bool) (new : Progress) :
    (s.withMgmt x).progressFirst p test new = (s.progressFirst p test new).withMgmt x := by cases p <;> rfl

theorem State.withMgmt_countPort (p : Port) (f : PortCounts → PortCounts) :
    (s.withMgmt x).countPort p f = (s.countPort p f).withMgmt x := by cases p <;> rfl

theorem State.withMgmt_recordError (p : Port) (reason : ErrorReason) (r : BusRequest) :
    (s.withMgmt x).recordError p reason r = (s.recordError p reason r).withMgmt x := by cases p <;> rfl

theorem State.withMgmt_passage (w : Option WindowId) (f : Nat → Nat) :
    (s.withMgmt x).passage w f = (s.passage w f).withMgmt x := by cases w <;> rfl

theorem State.withMgmt_raise (c : Cause) : (s.withMgmt x).raise c = (s.raise c).withMgmt x := rfl

theorem State.withMgmt_handRecord (r : CaptureRecord) :
    (s.withMgmt x).handRecord r = (s.handRecord r).withMgmt x := by
  unfold State.handRecord
  rw [State.withMgmt_cap]
  split <;> rfl

theorem State.withMgmt_takeHit (h : Hit) : (s.withMgmt x).takeHit h = (s.takeHit h).withMgmt x := by
  unfold State.takeHit
  dsimp only
  rw [apply_ite (State.withMgmt x), apply_ite (State.withMgmt x), apply_ite (State.withMgmt x)]
  exact if_congr Iff.rfl rfl (if_congr Iff.rfl rfl (if_congr Iff.rfl rfl
    (State.withMgmt_handRecord (s.withChannel h.channel _) x _)))

theorem State.withMgmt_hitFor (p : Port) (r : BusRequest) (cls : Classification) (m : LaneSet) (d : Lanes) (e : Bool) :
    (s.withMgmt x).hitFor p r cls m d e = (s.hitFor p r cls m d e).withMgmt x := by
  unfold State.hitFor
  split
  · exact s.withMgmt_takeHit x _
  · rfl

theorem State.withMgmt_firstRequest (p : Port) (test : Progress → Bool) :
    (s.withMgmt x).firstRequest p test = s.firstRequest p test := by cases p <;> rfl

theorem State.withMgmt_head (p : Port) : (s.withMgmt x).head p = s.head p := s.withMgmt_firstRequest x p _

theorem State.withMgmt_answerPlaced (p : Port) (cls : Classification) (merged : Bool) :
    (s.withMgmt x).answerPlaced p cls merged = (s.answerPlaced p cls merged).withMgmt x := by
  simp only [State.answerPlaced, State.withMgmt_progressFirst, State.withMgmt_countPort, State.withMgmt_passage]

theorem State.withMgmt_answerRefused (p : Port) (cls : Classification) (r : BusRequest) (reason : ErrorReason) :
    (s.withMgmt x).answerRefused p cls r reason = (s.answerRefused p cls r reason).withMgmt x := by
  simp only [State.answerRefused, State.withMgmt_progressFirst, State.withMgmt_recordError, State.withMgmt_passage]

theorem State.withMgmt_enterHead (p : Port) (r : BusRequest) :
    (s.withMgmt x).enterHead p r = (s.enterHead p r).withMgmt x := by
  have same : (s.withMgmt x).classify p r.word = s.classify p r.word := rfl
  have covered : ∀ g v w, (s.withMgmt x).fullyCovered g v w = s.fullyCovered g v w := fun _ _ _ => rfl
  have word : ∀ g v w l, (s.withMgmt x).forwardedWord g v w l = s.forwardedWord g v w l := fun _ _ _ _ => rfl
  simp only [State.enterHead, same, covered, word, State.withMgmt_progressFirst, State.withMgmt_countPort,
    State.withMgmt_passage, State.withMgmt_hitFor]
  split <;> try rfl
  split <;> rfl

theorem State.withMgmt_bringHeads (p : Port) (n : Nat) : ∀ s : State,
    (s.withMgmt x).bringHeads p n = (s.bringHeads p n).withMgmt x := by
  induction n with
  | zero => exact fun _ => rfl
  | succ n ih =>
    intro s
    simp only [State.bringHeads, State.withMgmt_head, State.withMgmt_firstRequest]
    split
    · rw [State.withMgmt_enterHead, ih]
    · rfl

theorem State.withMgmt_moveOn (p : Port) : (s.withMgmt x).moveOn p = (s.moveOn p).withMgmt x := by
  unfold State.moveOn
  rw [State.withMgmt_port, State.withMgmt_bringHeads]

theorem State.withMgmt_place (p : Port) (g : GroupId) (w : WordIndex) (m : LaneSet) (d : Lanes) :
    (s.withMgmt x).place p g w m d = ((s.place p g w m d).1.withMgmt x, (s.place p g w m d).2) := by
  have target : (s.withMgmt x).mergeTarget g w = s.mergeTarget g w := rfl
  have index : (s.withMgmt x).allocationIndex g = s.allocationIndex g := rfl
  simp only [State.place, target, index, State.withMgmt_group]
  split
  · rfl
  split
  · rfl
  split <;> rfl

theorem State.withMgmt_retryHold (h : Hold) :
    (s.withMgmt x).retryHold h = ((s.retryHold h).1.withMgmt x, (s.retryHold h).2) := by
  have drop : ∀ (u : State) p, (u.withMgmt x).dropHold p = (u.dropHold p).withMgmt x := fun _ _ => rfl
  simp only [State.retryHold, State.withMgmt_head, State.withMgmt_place, drop, State.withMgmt_answerPlaced,
    State.withMgmt_answerRefused]
  split
  · split <;> rfl
  · rfl

theorem State.withMgmt_retryAll (holds : List Hold) : ∀ s : State,
    State.retryAll holds (s.withMgmt x) = ((State.retryAll holds s).1.withMgmt x, (State.retryAll holds s).2) := by
  induction holds with
  | nil => exact fun _ => rfl
  | cons h rest ih => exact fun s => by simp only [State.retryAll, State.withMgmt_retryHold, ih]

theorem State.withMgmt_moveOnAll (ports : List Port) : ∀ s : State,
    State.moveOnAll ports (s.withMgmt x) = (State.moveOnAll ports s).withMgmt x := by
  induction ports with
  | nil => exact fun _ => rfl
  | cons p rest ih => exact fun s => by simp only [State.moveOnAll, State.withMgmt_moveOn, ih]

/-- A retry point beside another management port (R16). -/
theorem State.withMgmt_retryHolds (concerned : Hold → Bool) :
    (s.withMgmt x).retryHolds concerned = (s.retryHolds concerned).withMgmt x := by
  simp only [State.retryHolds, State.withMgmt_holds, State.withMgmt_retryAll, State.withMgmt_moveOnAll]

/-- An answer at the management port and a retry point in either order (R16, R168). -/
theorem State.reply_retryHolds (code : ResultCode) (data : List Byte) (concerned : Hold → Bool) :
    (s.reply code data).retryHolds concerned = (s.retryHolds concerned).reply code data := by
  unfold State.reply
  rw [State.withMgmt_retryHolds, (s.retryHolds_frame concerned).2.2.2.2.2.1]

end

end Sys2Proof.Machine

/-! PROOFS. The retry points: each happening has its own effect, which does not read the hold records, and then the
retries. -/

namespace Sys2Proof.Machine

open Sys2Proof

/-! ## The happenings of the retry points beside other hold records -/

section
variable (s : State) (x : List Hold)

theorem State.withHolds_handRecord (r : CaptureRecord) :
    (s.withHolds x).handRecord r = (s.handRecord r).withHolds x := by
  unfold State.handRecord
  rw [State.withHolds_cap]
  split <;> rfl

theorem State.withHolds_committed (g : GroupId) : (s.withHolds x).committed g = (s.committed g).withHolds x := by
  have log : ∀ (u : State) q t, (u.withHolds x).logEmptyCommit g q t = (u.logEmptyCommit g q t).withHolds x := fun u q t => by
    unfold State.logEmptyCommit
    rw [State.withHolds_handRecord, apply_ite (State.withHolds x)]
    rfl
  unfold State.committed
  rw [apply_ite (State.withHolds x), ← log]
  rfl

theorem State.withHolds_aborted (g : GroupId) : (s.withHolds x).aborted g = (s.aborted g).withHolds x := rfl

theorem State.withHolds_missSlot (g : GroupId) : (s.withHolds x).missSlot g = (s.missSlot g).withHolds x := rfl

theorem State.withHolds_settleEntry (g : GroupId) (i : PoolIndex) (status : Status) :
    (s.withHolds x).settleEntry g i status = (s.settleEntry g i status).withHolds x := by
  unfold State.settleEntry
  dsimp only
  rw [apply_ite (State.withHolds x)]
  refine if_congr Iff.rfl ?_ rfl
  cases status <;> rfl

theorem State.withHolds_wakeHead : (s.withHolds x).wakeHead = s.wakeHead.withHolds x := by
  unfold State.wakeHead
  rw [State.withHolds_drain]
  split
  · rw [apply_ite (State.withHolds x)]
    rfl
  · rfl

theorem State.withHolds_retire (d : Drain) : (s.withHolds x).retire d = (s.retire d).withHolds x := by
  have left : ((s.withHolds x).withDrain { (s.withHolds x).drain with queue := (s.withHolds x).drain.queue.tail }).wakeHead =
      (s.withDrain { s.drain with queue := s.drain.queue.tail }).wakeHead.withHolds x := 
    State.withHolds_wakeHead (s.withDrain { s.drain with queue := s.drain.queue.tail }) x
  unfold State.retire
  dsimp only
  rw [left, apply_ite (State.withHolds x), ← State.withHolds_handRecord]
  rfl

theorem State.withHolds_ackGeneration (status : Status) :
    (s.withHolds x).ackGeneration status = (s.ackGeneration status).withHolds x := by
  unfold State.ackGeneration
  rw [State.withHolds_drain]
  split
  · dsimp only
    rw [apply_ite (State.withHolds x), ← State.withHolds_retire]
    rfl
  · rfl

theorem State.withHolds_ackLeftover : (s.withHolds x).ackLeftover = s.ackLeftover.withHolds x :=
  congrArg State.refreshBusy (State.withHolds_wakeHead (s.withDrain { s.drain with leftovers := s.drain.leftovers.tail }) x)

theorem State.withHolds_acknowledged (g : GroupId) (i : PoolIndex) (status : Status) :
    (s.withHolds x).acknowledged g i status = (s.acknowledged g i status).withHolds x := by
  unfold State.acknowledged
  rw [State.withHolds_settleEntry, State.withHolds_ackGeneration, State.withHolds_ackLeftover,
    apply_ite (State.withHolds x)]
  rfl

end

/-! ## Each effect, and then the retries -/

/-- A happening whose effect keeps the hold records without reading them, and whose answer leaves them: what it does beside
no hold record, and then the retries. -/
theorem exec_retryPoint {s u : State} {c : Instr} {concerned : Hold → Bool} {effect answer : State → State}
    (run : exec c s = .next (answer ((effect s).retryHolds concerned)))
    (alone : exec c (s.withHolds []) = .next (answer ((effect (s.withHolds [])).retryHolds concerned)))
    (commute : ∀ (v : State) (x : List Hold), effect (v.withHolds x) = (effect v).withHolds x)
    (kept : (effect s).holds = s.holds)
    (retries : ∀ v : State, (answer v).retryHolds concerned = answer (v.retryHolds concerned))
    (leaves : ∀ (v : State) (x : List Hold), answer (v.withHolds x) = (answer v).withHolds x)
    (hu : exec c { s with holds := [] } = .next u) :
    exec c s = .next (({ u with holds := s.holds } : State).retryHolds concerned) := by
  have none : ((effect s).withHolds []).retryHolds concerned = (effect s).withHolds [] :=
    State.retryHolds_of_none rfl concerned
  have value : answer ((effect s).withHolds []) = u := by
    rw [commute, none] at alone
    exact Host.Outcome.next.inj (alone.symm.trans hu)
  have back : u.withHolds s.holds = answer (effect s) := by
    rw [← value, ← leaves, State.withHolds_withHolds, ← kept]
    rfl
  rw [run, ← retries]
  exact congrArg (fun v => Host.Outcome.next (State.retryHolds concerned v)) back.symm

/-- A commit event, an ABORT_GROUP that frees entries and the acknowledgement of a drain write: their own effects, and then
the retries (R16). -/
theorem exec_of_retryPoint {s u : State} {c : Instr} {concerned : Hold → Bool} (hr : s.resetLow = false)
    (point : (∃ g : GroupId, c = .commitNow (BitVec.twoPow 8 g.val) ∧ s.mgmt.listening = true ∧ s.op = .active ∧
        (s.group g).enabled = true ∧ (s.group g).drainList = [] ∧ concerned = fun h => decide (h.group = g)) ∨
      (∃ g : GroupId, c = .abortGroup (BitVec.ofNat 8 g.val) ∧ s.mgmt.listening = true ∧ s.op ≠ .init ∧
        (s.group g).enabled = true ∧ (s.group g).openList ≠ [] ∧ concerned = fun _ => true) ∨
      ∃ (status : Status) (memory : Lanes) (tag : Tag) (g : GroupId) (i : PoolIndex) (q : BusRequest)
        (rest : List Outstanding), c = .memoryResponse status memory tag ∧
        s.arb.outstanding = ⟨.drain g i, q⟩ :: rest ∧ concerned = fun _ => true)
    (hu : exec c { s with holds := [] } = .next u) :
    exec c s = .next (({ u with holds := s.holds } : State).retryHolds concerned) := by
  rcases point with ⟨g, rfl, hl, ha, he, hd, rfl⟩ | ⟨g, rfl, hl, ha, he, ho, rfl⟩ |
    ⟨status, memory, tag, g, i, q, rest, rfl, ho, rfl⟩
  · have commits : ∀ v : State, v.takesFrames → v.op = .active → (v.group g).enabled = true → (v.group g).drainList = [] →
        exec (.commitNow (BitVec.twoPow 8 g.val)) v = .next (((v.committed g).retryHolds fun h => decide (h.group = g)).reply
          .accepted [BitVec.twoPow 8 g.val, 0]) := fun v h1 h2 h3 h4 => by
      rw [exec_commitNow_of_one h1 h2 h3 h4, State.takeCommit_eq]
    exact exec_retryPoint (effect := State.committed g) (answer := State.reply .accepted [BitVec.twoPow 8 g.val, 0])
      (commits s ⟨hr, hl⟩ ha he hd) (commits (s.withHolds []) ⟨hr, hl⟩ ha he hd) (fun v x => v.withHolds_committed x g)
      (by simp) (fun v => v.reply_retryHolds _ _ _) (fun _ _ => rfl) hu
  · have aborts : ∀ v : State, v.takesFrames → v.op ≠ .init → (v.group g).enabled = true → (v.group g).openList ≠ [] →
        exec (.abortGroup (BitVec.ofNat 8 g.val)) v = .next (((v.aborted g).retryHolds fun _ => true).reply .accepted
          (byteNat (v.group g).openList.length)) := fun v h1 h2 h3 h4 => by
      rw [exec_abortGroup_of_number h1 (argBelow_ofNat (by decide) g), if_neg (by simp [h2, h3]), State.abortOpen_eq h4]
    exact exec_retryPoint (effect := State.aborted g)
      (answer := State.reply .accepted (byteNat (s.group g).openList.length))
      (aborts s ⟨hr, hl⟩ ha he ho) (aborts (s.withHolds []) ⟨hr, hl⟩ ha he ho) (fun v x => v.withHolds_aborted x g)
      (by simp) (fun v => v.reply_retryHolds _ _ _) (fun _ _ => rfl) hu
  · have answers : ∀ v : State, v.resetLow = false → v.arb.outstanding = ⟨.drain g i, q⟩ :: rest →
        exec (.memoryResponse status memory tag) v = .next
          (((v.withArb { v.arb with outstanding := rest }).acknowledged g i status).retryHolds fun _ => true) :=
      fun v h1 h2 => by rw [exec_memoryResponse_of_drain h1 h2, State.ackDrain_eq]
    exact exec_retryPoint
      (effect := fun v => (v.withArb { v.arb with outstanding := rest }).acknowledged g i status) (answer := id)
      (answers s hr ho) (answers (s.withHolds []) hr ho)
      (fun v x => State.withHolds_acknowledged (v.withArb { v.arb with outstanding := rest }) x g i status)
      (by simpa using ((s.withArb { s.arb with outstanding := rest }).acknowledged_frame g i status).2.2.1)
      (fun _ => rfl) (fun _ _ => rfl) hu

/-- A slot instant or an edge at one group: a commit event with its retries, or a missed slot without (R16, R37). -/
theorem State.slotAt_eq (s : State) (g : GroupId) :
    s.slotAt g = if (s.group g).drainList = [] then
        (((s.withHolds []).slotAt g).withHolds s.holds).retryHolds fun h => decide (h.group = g)
      else ((s.withHolds []).slotAt g).withHolds s.holds := by
  by_cases hd : (s.group g).drainList = []
  · have idle : ∀ v : State, (v.group g).drainList = [] →
        v.slotAt g = (v.committed g).retryHolds fun h => decide (h.group = g) :=
      fun v hv => by
        unfold State.slotAt
        rw [if_neg (by simp [Group.isDraining, hv]), State.takeCommit_eq]
    have own : (s.withHolds []).slotAt g = (s.committed g).withHolds [] := by
      rw [idle (s.withHolds []) hd, State.withHolds_committed]
      exact State.retryHolds_of_none rfl _
    have back : ((s.withHolds []).slotAt g).withHolds s.holds = s.committed g := by
      have kept : (s.committed g).holds = s.holds := by simp
      rw [own, State.withHolds_withHolds, ← kept]
      rfl
    rw [if_pos hd, back, idle s hd]
  · have missed : ∀ v : State, (v.group g).drainList ≠ [] → v.slotAt g = v.missSlot g := fun v hv => by
      unfold State.slotAt
      rw [if_pos (by simp [Group.isDraining, hv])]
    rw [if_neg hd, missed s hd, missed (s.withHolds []) hd]
    rfl

/-- COMMIT_NOW of one enabled group that is draining (R38). -/
theorem exec_commitNow_of_busy {s : State} (hs : s.takesFrames) (ha : s.op = .active) {g : GroupId}
    (he : (s.group g).enabled = true) (hd : (s.group g).drainList ≠ []) :
    exec (.commitNow (BitVec.twoPow 8 g.val)) s = .next (s.reply .accepted [0, BitVec.twoPow 8 g.val]) := by
  obtain ⟨hlt, hne, hm, hset⟩ := twoPow_lt g
  have none : setOf [] = [0] := rfl
  rw [exec_commitNow_of_set hs hne hlt, if_pos ha, hm, State.commitNow_of_draining he hd]
  simp only [State.commitNow, hset, none, List.cons_append, List.nil_append]

end Sys2Proof.Machine

/-! PROOFS. The rows that bring a slot instant or an edge, as the groups they reach one after another. -/

namespace Sys2Proof.Machine

open Sys2Proof

/-! ## The state a slot instant or an edge finds -/

/-- A state differs from an earlier one only in the timebase, the capture unit, the causes and the slot settings of the
groups (R123, R124). -/
def State.BeforeSlots (s p : State) : Prop :=
  p = { s with tb := p.tb, cap := p.cap, ev := p.ev, groups := p.groups } ∧
  ∀ g : GroupId, p.group g = { s.group g with
    slotOffset := (p.group g).slotOffset
    pendingOffset := (p.group g).pendingOffset
    outOfRange := (p.group g).outOfRange }

/-- The groups of a test take a slot instant or an edge in ascending order, each whole before the next (R34). -/
def State.TakesSlots (s : State) (reached : GroupId → Bool) (t : State) : Prop :=
  ∃ p : State, t = ((List.finRange 4).filter reached).foldl (fun (u : State) (g : GroupId) => u.slotAt g) p ∧
    s.BeforeSlots p

/-- Changes of the timebase, the capture unit and the causes leave the groups' slot settings too. -/
theorem State.BeforeSlots.of_groups {s p : State} (groups : p.groups = s.groups)
    (blocks : p = { s with tb := p.tb, cap := p.cap, ev := p.ev, groups := p.groups }) : s.BeforeSlots p :=
  ⟨blocks, fun g => by rw [State.group_eq groups g]⟩

theorem State.slotsAt_eq_foldl (l : List GroupId) : ∀ s : State, State.slotsAt l s =
    l.foldl (fun (u : State) (g : GroupId) => u.slotAt g) s := by
  induction l with
  | nil => exact fun _ => rfl
  | cons g l ih => exact fun s => ih (s.slotAt g)

/-- A row that brings nothing. -/
theorem State.takesSlots_of_none {s : State} {reached : GroupId → Bool} (h : ∀ g, reached g = false) :
    s.TakesSlots reached s := by
  refine ⟨s, ?_, .of_groups rfl rfl⟩
  rw [List.filter_eq_nil_iff.mpr fun g _ => by simp [h g]]
  rfl

/-- A slot instant reaches its groups (R124). -/
theorem State.BeforeSlots.slotInstant {s p : State} {reached : GroupId → Bool} (before : s.BeforeSlots p)
    (h : ∀ g, reached g = p.slotReaches p.group p.tb.counter g) : s.TakesSlots reached p.slotInstant := by
  refine ⟨p, ?_, before⟩
  unfold State.slotInstant
  rw [State.concernedGroups_eq, State.slotsAt_eq_foldl, funext h]
  rfl

/-- What a wrap changes before its slot instant (R123). -/
theorem State.wrapApplied_blocks (u : State) : u.wrapApplied = { u with
    tb := u.wrapApplied.tb, cap := u.wrapApplied.cap, ev := u.wrapApplied.ev, groups := u.wrapApplied.groups } := by
  have rest : u.wrapApplied.resetLow = u.resetLow ∧ u.wrapApplied.pool = u.pool ∧ u.wrapApplied.inputs = u.inputs ∧
      u.wrapApplied.pending = u.pending := by
    unfold State.wrapApplied
    split <;> simp [State.wrapEntered]
  obtain ⟨low, pool, inputs, pending⟩ := rest
  obtain ⟨op, windows, holds, drain, arb, a, b, mgmt⟩ := u.wrapApplied_frame
  exact State.ext_blocks low op windows pool holds rfl drain arb a b rfl rfl rfl mgmt inputs pending

/-- A wrap reaches the groups of the slot instant for 0, the pending values in force (R123). -/
theorem State.BeforeSlots.wrap {s u : State} {reached : GroupId → Bool} (before : s.BeforeSlots u)
    (groups : u.groups = s.groups) (period : u.tb.period = s.tb.period)
    (pending : u.tb.pendingPeriod = s.tb.pendingPeriod) (prescale : u.tb.pendingPrescale = s.tb.pendingPrescale)
    (h : ∀ g, reached g = s.slotReaches s.groupAtWrap 0 g) : s.TakesSlots reached u.wrap := by
  have any : u.anyPending = s.anyPending := by simp [State.anyPending, pending, prescale, groups]
  have group : ∀ g, u.wrapApplied.group g = s.groupAtWrap g := fun g => by
    rw [State.wrapApplied_group]
    simp only [State.groupAtWrap, any, period, pending, State.group_eq groups]
  have op : u.op = s.op := by rw [before.1]
  rw [State.wrap_eq]
  refine State.BeforeSlots.slotInstant ⟨?_, fun g => by rw [group g]; rfl⟩ fun g => ?_
  · exact u.wrapApplied_blocks.trans (congrArg (fun v : State => { v with
      tb := u.wrapApplied.tb, cap := u.wrapApplied.cap, ev := u.wrapApplied.ev, groups := u.wrapApplied.groups }) before.1)
  · rw [h g]
    simp [State.slotReaches, group g, op, Timebase.wrapped]

/-! ## The five rows -/

section
variable (s : State)

/-- The end of a tick below period-1 (R124). -/
theorem State.counterStep_takesSlots : s.TakesSlots (s.rowReaches .counterStep) s.counterStep := by
  unfold State.counterStep
  split
  · rename_i h
    obtain ⟨running, below⟩ := Bool.and_eq_true_iff.mp h
    have before : s.BeforeSlots (s.withTb { s.tb with counter := s.tb.counter + 1 }) := .of_groups rfl rfl
    exact before.slotInstant fun g => by
      simp only [State.rowReaches, running, of_decide_eq_true below, decide_true, Bool.true_and]
      rfl
  · rename_i h
    refine State.takesSlots_of_none fun g => ?_
    have off : (s.tb.running && decide (s.tb.counter.toNat + 1 < s.tb.period.toNat)) = false := by
      simpa [State.belowLast] using h
    simp only [State.rowReaches, off, Bool.false_and]

/-- The end of the tick of period-1 (R123). -/
theorem State.naturalWrap_takesSlots : s.TakesSlots (s.rowReaches .naturalWrap) s.naturalWrap := by
  have last : (!s.belowLast) = decide (s.tb.period.toNat ≤ s.tb.counter.toNat + 1) := by
    simp [State.belowLast, ← decide_not]
  unfold State.naturalWrap
  rw [last]
  split
  · rename_i h
    have before : s.BeforeSlots s := .of_groups rfl rfl
    exact before.wrap rfl rfl rfl rfl fun g => by simp only [State.rowReaches, h, Bool.true_and]
  · rename_i h
    exact State.takesSlots_of_none fun g => by
      simp only [State.rowReaches, Bool.not_eq_true _ ▸ h, Bool.false_and]

/-- A SYNC_IN edge (R128). -/
theorem State.syncEdge_takesSlots (seen : s.inputs.syncIn.seen ≠ .highFromRelease) :
    s.TakesSlots (s.rowReaches .syncInEdge) s.syncEdge := by
  by_cases h : s.tb.running = true ∧ s.tb.syncEnable = true
  · obtain ⟨running, sync⟩ := h
    have reached : ∀ g, s.rowReaches .syncInEdge g = s.slotReaches s.groupAtWrap 0 g := fun g => by
      simp only [State.rowReaches, running, sync, decide_eq_true seen, Bool.true_and]
    by_cases below : s.tb.counter.toNat + 1 < s.tb.period.toNat
    · rw [State.syncEdge_of_truncated running sync below]
      exact State.BeforeSlots.wrap (.of_groups rfl rfl) rfl rfl rfl rfl reached
    · rw [State.syncEdge_of_last running sync below]
      exact State.BeforeSlots.wrap (.of_groups rfl rfl) rfl rfl rfl rfl reached
  · have off : (s.tb.running && s.tb.syncEnable) = false := by simpa [Bool.and_eq_false_iff] using h
    have same : s.syncEdge = s := by
      unfold State.syncEdge
      rw [if_neg (by rw [Bool.and_comm, off]; exact Bool.false_ne_true)]
    rw [same]
    refine State.takesSlots_of_none fun g => ?_
    simp only [State.rowReaches, Bool.and_assoc]
    rw [← Bool.and_assoc s.tb.running, off]
    simp

/-- A COMMIT_IN edge (R34). -/
theorem State.commitInEdge_takesSlots (seen : s.inputs.commitIn.seen ≠ .highFromRelease) :
    s.TakesSlots (s.rowReaches .commitInEdge) s.commitInEdge := by
  have reached : s.rowReaches .commitInEdge = fun g =>
      decide (s.op = .active) && (s.group g).enabled && decide ((s.group g).trigger = .external) && true := funext fun g => by
    simp only [State.rowReaches, decide_eq_true seen, Bool.true_and, Bool.and_true]
  refine ⟨s, ?_, .of_groups rfl rfl⟩
  unfold State.commitInEdge
  rw [State.concernedGroups_eq, State.slotsAt_eq_foldl, reached]

/-- A start of the timebase (R121). -/
theorem State.startTimebase_takesSlots (listening : s.mgmt.listening = true) (stopped : s.tb.running = false) :
    s.TakesSlots (s.rowReaches .startTimebase) s.startTimebase := by
  have before : s.BeforeSlots (s.withTb { s.tb with counter := 0, tickDivider := 0, running := true }) := .of_groups rfl rfl
  exact before.slotInstant fun g => by
    simp only [State.rowReaches, listening, stopped, Bool.not_false, Bool.true_and]
    rfl

/-- A slot instant's groups are reached in ACTIVE only (R34). -/
theorem State.slotReaches_of_inactive (h : s.op ≠ .active) (groups : GroupId → Group) (value : BitVec 16) (g : GroupId) :
    s.slotReaches groups value g = false := by
  simp [State.slotReaches, h]

end

/-- The state of a row whose answer alone stands in the management port. -/
theorem State.restore_mgmt {s t : State} (h : t.mgmt = s.mgmt) : ({ t with mgmt := s.mgmt } : State) = t := by
  rw [← h]

/-- START_TIMEBASE, with its answer and the refusals that change nothing else (R121, R168). -/
theorem exec_startTimebase_takesSlots {s : State} (hr : s.resetLow = false) : ∃ t : State, exec .startTimebase s = .next t ∧
    s.TakesSlots (s.rowReaches .startTimebase) ({ t with mgmt := s.mgmt } : State) := by
  cases hl : s.mgmt.listening with
  | false =>
    refine ⟨_, congrArg Host.Outcome.next (State.hearing_of_waiting hr hl _), State.takesSlots_of_none fun g => ?_⟩
    simp only [State.rowReaches, hl, Bool.false_and]
  | true =>
    have row : ∀ f : State → State, s.hearing f = f s := State.hearing_of_listening hr hl
    by_cases hi : s.op = .init
    · refine ⟨_, congrArg Host.Outcome.next ((row _).trans (State.unlessInit_of_init hi _ _)),
        State.takesSlots_of_none fun g => ?_⟩
      simp only [State.rowReaches, s.slotReaches_of_inactive (by rw [hi]; decide), Bool.and_false]
    · refine ⟨_, congrArg Host.Outcome.next ((row _).trans (State.unlessInit_of_ne hi _ _)), ?_⟩
      cases running : s.tb.running with
      | true =>
        refine State.takesSlots_of_none fun g => ?_
        simp only [State.rowReaches, running, Bool.not_true, Bool.and_false, Bool.false_and]
      | false =>
        have same : ({ s.startTimebase.accept with mgmt := s.mgmt } : State) = s.startTimebase :=
          State.restore_mgmt (t := s.startTimebase) (by simp)
        rw [if_neg Bool.false_ne_true, same]
        exact s.startTimebase_takesSlots hl running

/-- The rows that bring a slot instant or an edge: the groups they reach, one after another (R34, R124). -/
theorem exec_takesSlots {s : State} {c : Instr} (hr : s.resetLow = false)
    (hc : c ∈ [Instr.counterStep, .naturalWrap, .syncInEdge, .commitInEdge, .startTimebase]) :
    ∃ t : State, exec c s = .next t ∧ s.TakesSlots (s.rowReaches c) ({ t with mgmt := s.mgmt } : State) := by
  have row : ∀ f : State → State, s.awake f = f s := State.awake_of_high hr
  have edge : ∀ (line : EdgeInput) (f : State → State), line.seen ≠ .highFromRelease → s.onEdge line f = f s :=
    fun line f seen => State.onEdge_of_hasBeenLow hr seen f
  simp only [List.mem_cons, List.not_mem_nil, or_false] at hc
  rcases hc with rfl | rfl | rfl | rfl | rfl
  · refine ⟨s.counterStep, congrArg Host.Outcome.next (row _), ?_⟩
    rw [State.restore_mgmt (by simp)]
    exact s.counterStep_takesSlots
  · refine ⟨s.naturalWrap, congrArg Host.Outcome.next (row _), ?_⟩
    rw [State.restore_mgmt (by simp)]
    exact s.naturalWrap_takesSlots
  · by_cases seen : s.inputs.syncIn.seen = .highFromRelease
    · refine ⟨s, congrArg Host.Outcome.next (State.onEdge_of_highFromRelease seen _), State.takesSlots_of_none fun g => ?_⟩
      simp [State.rowReaches, seen]
    · refine ⟨s.syncEdge, congrArg Host.Outcome.next (edge _ _ seen), ?_⟩
      rw [State.restore_mgmt (by simp)]
      exact s.syncEdge_takesSlots seen
  · by_cases seen : s.inputs.commitIn.seen = .highFromRelease
    · refine ⟨s, congrArg Host.Outcome.next (State.onEdge_of_highFromRelease seen _), State.takesSlots_of_none fun g => ?_⟩
      simp [State.rowReaches, seen]
    · refine ⟨s.commitInEdge, congrArg Host.Outcome.next (edge _ _ seen), ?_⟩
      rw [State.restore_mgmt (by simp)]
      exact s.commitInEdge_takesSlots seen
  · exact exec_startTimebase_takesSlots hr

/-- Settles O32: one held write, two of them, and the happenings that are retry points. -/
theorem retryPointsServeHeldWrites : Obligations.RetryPointsServeHeldWrites := by
  refine ⟨fun s x concerned word m d tag cls hs ho hh => ⟨State.retryHolds_of_unconcerned hs, fun hc => ⟨?_, ?_, ?_⟩⟩,
    ?_, fun s u c concerned hr point hu => exec_of_retryPoint hr point hu, State.slotAt_eq, fun s c hr hc => ?_,
    fun s g hs ha he hd => exec_commitNow_of_busy hs ha he hd⟩
  · intro i e pre post hm hl hp he hw
    exact State.retryHolds_merges hs hc ho hh (State.mergeTarget_of_first hm hl hp he hw) he
  · intro i hn hl hi lower
    exact State.retryHolds_allocates hs hc ho hh hn hl (State.lowestFree_of_lowest hi lower)
  · intro hn hf
    exact ⟨fun hold => State.retryHolds_of_kept hs hc (State.retryHold_keeps hh hn hf hold),
      State.retryHolds_rejects hs hc ho hh hn hf⟩
  · intro s x y concerned wx wy mx my dx dy tx ty cx cy i hs agree ports hx hy headX headY needX needY apart hl policy free full
    exact State.retryHolds_firstRefused hs agree ports hx hy headX headY needX needY apart hl policy free full
  · obtain ⟨t, row, p, slots, blocks, groups⟩ := exec_takesSlots hr hc
    exact ⟨t, p, row, slots, blocks, groups⟩

end Sys2Proof.Machine
